-- ==== Sys2Proof/Word.lean ====
section
/-! DEFINITION. The bit-vector types the specification treats as bits: bytes, instruction words,
register contents and addresses, and the 4-bit register fields of an encoded instruction
(00_scope.md R8, R10, R11). -/

namespace Sys2Proof

/-- One byte of a bus access. -/
abbrev Byte := BitVec 8

/-- A 16-bit value: an instruction word or a word operand (30_encoding.md R120). -/
abbrev Half := BitVec 16

/-- A 32-bit value: a register, an address, a long operand (10_state.md R30). -/
abbrev Word := BitVec 32

/-- The number of a general register, R0 to R15, as the 4-bit field that names it
(30_encoding.md R121). -/
abbrev Reg := BitVec 4

end Sys2Proof
end

