-- ==== Sys2Proof/Syntax.lean ====
section
/-! DEFINITION. The instruction set: one constructor for each of the 142 rows of
spec/opcode_table.json, in the table's order, with the operand fields the row's format gives it
(30_encoding.md R121, R122). A register field is a `Reg`, an immediate or displacement field is the
field as encoded; scaling and extension belong to the meanings (R123, R124). -/

namespace Sys2Proof

inductive Instr where
  -- 40_data_transfer.md: data transfer
  /-- `MOV #imm,Rn`, R155. -/
  | movImm (imm : BitVec 8) (n : Reg)
  /-- `MOV.W @(disp,PC),Rn`, R156. -/
  | movWPc (d : BitVec 8) (n : Reg)
  /-- `MOV.L @(disp,PC),Rn`, R157. -/
  | movLPc (d : BitVec 8) (n : Reg)
  /-- `MOV Rm,Rn`, R158. -/
  | mov (m n : Reg)
  /-- `MOV.B Rm,@Rn`, R159. -/
  | movBStore (m n : Reg)
  /-- `MOV.W Rm,@Rn`, R160. -/
  | movWStore (m n : Reg)
  /-- `MOV.L Rm,@Rn`, R161. -/
  | movLStore (m n : Reg)
  /-- `MOV.B @Rm,Rn`, R162. -/
  | movBLoad (m n : Reg)
  /-- `MOV.W @Rm,Rn`, R163. -/
  | movWLoad (m n : Reg)
  /-- `MOV.L @Rm,Rn`, R164. -/
  | movLLoad (m n : Reg)
  /-- `MOV.B Rm,@-Rn`, R165. -/
  | movBPreDec (m n : Reg)
  /-- `MOV.W Rm,@-Rn`, R166. -/
  | movWPreDec (m n : Reg)
  /-- `MOV.L Rm,@-Rn`, R167. -/
  | movLPreDec (m n : Reg)
  /-- `MOV.B @Rm+,Rn`, R168. -/
  | movBPostInc (m n : Reg)
  /-- `MOV.W @Rm+,Rn`, R169. -/
  | movWPostInc (m n : Reg)
  /-- `MOV.L @Rm+,Rn`, R170. -/
  | movLPostInc (m n : Reg)
  /-- `MOV.B R0,@(disp,Rn)`, R171. -/
  | movBStoreDisp (d : BitVec 4) (n : Reg)
  /-- `MOV.W R0,@(disp,Rn)`, R172. -/
  | movWStoreDisp (d : BitVec 4) (n : Reg)
  /-- `MOV.L Rm,@(disp,Rn)`, R173. -/
  | movLStoreDisp (m : Reg) (d : BitVec 4) (n : Reg)
  /-- `MOV.B @(disp,Rm),R0`, R174. -/
  | movBLoadDisp (d : BitVec 4) (m : Reg)
  /-- `MOV.W @(disp,Rm),R0`, R175. -/
  | movWLoadDisp (d : BitVec 4) (m : Reg)
  /-- `MOV.L @(disp,Rm),Rn`, R176. -/
  | movLLoadDisp (d : BitVec 4) (m n : Reg)
  /-- `MOV.B Rm,@(R0,Rn)`, R177. -/
  | movBStoreIdx (m n : Reg)
  /-- `MOV.W Rm,@(R0,Rn)`, R178. -/
  | movWStoreIdx (m n : Reg)
  /-- `MOV.L Rm,@(R0,Rn)`, R179. -/
  | movLStoreIdx (m n : Reg)
  /-- `MOV.B @(R0,Rm),Rn`, R180. -/
  | movBLoadIdx (m n : Reg)
  /-- `MOV.W @(R0,Rm),Rn`, R181. -/
  | movWLoadIdx (m n : Reg)
  /-- `MOV.L @(R0,Rm),Rn`, R182. -/
  | movLLoadIdx (m n : Reg)
  /-- `MOV.B R0,@(disp,GBR)`, R183. -/
  | movBStoreGbr (d : BitVec 8)
  /-- `MOV.W R0,@(disp,GBR)`, R184. -/
  | movWStoreGbr (d : BitVec 8)
  /-- `MOV.L R0,@(disp,GBR)`, R185. -/
  | movLStoreGbr (d : BitVec 8)
  /-- `MOV.B @(disp,GBR),R0`, R186. -/
  | movBLoadGbr (d : BitVec 8)
  /-- `MOV.W @(disp,GBR),R0`, R187. -/
  | movWLoadGbr (d : BitVec 8)
  /-- `MOV.L @(disp,GBR),R0`, R188. -/
  | movLLoadGbr (d : BitVec 8)
  /-- `MOVA @(disp,PC),R0`, R189. -/
  | mova (d : BitVec 8)
  /-- `MOVT Rn`, R190. -/
  | movt (n : Reg)
  /-- `SWAP.B Rm,Rn`, R191. -/
  | swapB (m n : Reg)
  /-- `SWAP.W Rm,Rn`, R192. -/
  | swapW (m n : Reg)
  /-- `XTRCT Rm,Rn`, R193. -/
  | xtrct (m n : Reg)
  -- 41_arithmetic.md: arithmetic
  /-- `ADD Rm,Rn`, R204. -/
  | add (m n : Reg)
  /-- `ADD #imm,Rn`, R205. -/
  | addImm (imm : BitVec 8) (n : Reg)
  /-- `ADDC Rm,Rn`, R206. -/
  | addc (m n : Reg)
  /-- `ADDV Rm,Rn`, R207. -/
  | addv (m n : Reg)
  /-- `CMP/EQ #imm,R0`, R208. -/
  | cmpEqImm (imm : BitVec 8)
  /-- `CMP/EQ Rm,Rn`, R209. -/
  | cmpEq (m n : Reg)
  /-- `CMP/HS Rm,Rn`, R210. -/
  | cmpHs (m n : Reg)
  /-- `CMP/GE Rm,Rn`, R211. -/
  | cmpGe (m n : Reg)
  /-- `CMP/HI Rm,Rn`, R212. -/
  | cmpHi (m n : Reg)
  /-- `CMP/GT Rm,Rn`, R213. -/
  | cmpGt (m n : Reg)
  /-- `CMP/PZ Rn`, R214. -/
  | cmpPz (n : Reg)
  /-- `CMP/PL Rn`, R215. -/
  | cmpPl (n : Reg)
  /-- `CMP/STR Rm,Rn`, R216. -/
  | cmpStr (m n : Reg)
  /-- `DIV1 Rm,Rn`, R217. -/
  | div1 (m n : Reg)
  /-- `DIV0S Rm,Rn`, R218. -/
  | div0s (m n : Reg)
  /-- `DIV0U`, R219. -/
  | div0u
  /-- `DMULS.L Rm,Rn`, R220. -/
  | dmulsL (m n : Reg)
  /-- `DMULU.L Rm,Rn`, R221. -/
  | dmuluL (m n : Reg)
  /-- `DT Rn`, R222. -/
  | dt (n : Reg)
  /-- `EXTS.B Rm,Rn`, R223. -/
  | extsB (m n : Reg)
  /-- `EXTS.W Rm,Rn`, R224. -/
  | extsW (m n : Reg)
  /-- `EXTU.B Rm,Rn`, R225. -/
  | extuB (m n : Reg)
  /-- `EXTU.W Rm,Rn`, R226. -/
  | extuW (m n : Reg)
  /-- `MAC.L @Rm+,@Rn+`, R227. -/
  | macL (m n : Reg)
  /-- `MAC.W @Rm+,@Rn+`, R228. -/
  | macW (m n : Reg)
  /-- `MUL.L Rm,Rn`, R229. -/
  | mulL (m n : Reg)
  /-- `MULS.W Rm,Rn`, R230. -/
  | mulsW (m n : Reg)
  /-- `MULU.W Rm,Rn`, R231. -/
  | muluW (m n : Reg)
  /-- `NEG Rm,Rn`, R232. -/
  | neg (m n : Reg)
  /-- `NEGC Rm,Rn`, R233. -/
  | negc (m n : Reg)
  /-- `SUB Rm,Rn`, R234. -/
  | sub (m n : Reg)
  /-- `SUBC Rm,Rn`, R235. -/
  | subc (m n : Reg)
  /-- `SUBV Rm,Rn`, R236. -/
  | subv (m n : Reg)
  -- 42_logic.md: logic
  /-- `AND Rm,Rn`, R251. -/
  | and (m n : Reg)
  /-- `AND #imm,R0`, R252. -/
  | andImm (imm : BitVec 8)
  /-- `AND.B #imm,@(R0,GBR)`, R253. -/
  | andB (imm : BitVec 8)
  /-- `NOT Rm,Rn`, R254. -/
  | not (m n : Reg)
  /-- `OR Rm,Rn`, R255. -/
  | or (m n : Reg)
  /-- `OR #imm,R0`, R256. -/
  | orImm (imm : BitVec 8)
  /-- `OR.B #imm,@(R0,GBR)`, R257. -/
  | orB (imm : BitVec 8)
  /-- `TAS.B @Rn`, R258. -/
  | tas (n : Reg)
  /-- `TST Rm,Rn`, R259. -/
  | tst (m n : Reg)
  /-- `TST #imm,R0`, R260. -/
  | tstImm (imm : BitVec 8)
  /-- `TST.B #imm,@(R0,GBR)`, R261. -/
  | tstB (imm : BitVec 8)
  /-- `XOR Rm,Rn`, R262. -/
  | xor (m n : Reg)
  /-- `XOR #imm,R0`, R263. -/
  | xorImm (imm : BitVec 8)
  /-- `XOR.B #imm,@(R0,GBR)`, R264. -/
  | xorB (imm : BitVec 8)
  -- 43_shift.md: shifts and rotates
  /-- `ROTL Rn`, R271. -/
  | rotl (n : Reg)
  /-- `ROTR Rn`, R272. -/
  | rotr (n : Reg)
  /-- `ROTCL Rn`, R273. -/
  | rotcl (n : Reg)
  /-- `ROTCR Rn`, R274. -/
  | rotcr (n : Reg)
  /-- `SHAL Rn`, R275. -/
  | shal (n : Reg)
  /-- `SHAR Rn`, R276. -/
  | shar (n : Reg)
  /-- `SHLL Rn`, R277. -/
  | shll (n : Reg)
  /-- `SHLR Rn`, R278. -/
  | shlr (n : Reg)
  /-- `SHLL2 Rn`, R279. -/
  | shll2 (n : Reg)
  /-- `SHLR2 Rn`, R280. -/
  | shlr2 (n : Reg)
  /-- `SHLL8 Rn`, R281. -/
  | shll8 (n : Reg)
  /-- `SHLR8 Rn`, R282. -/
  | shlr8 (n : Reg)
  /-- `SHLL16 Rn`, R283. -/
  | shll16 (n : Reg)
  /-- `SHLR16 Rn`, R284. -/
  | shlr16 (n : Reg)
  -- 44_branch.md: branches
  /-- `BF label`, R294. -/
  | bf (d : BitVec 8)
  /-- `BF/S label`, R295. -/
  | bfS (d : BitVec 8)
  /-- `BT label`, R296. -/
  | bt (d : BitVec 8)
  /-- `BT/S label`, R297. -/
  | btS (d : BitVec 8)
  /-- `BRA label`, R298. -/
  | bra (d : BitVec 12)
  /-- `BRAF Rm`, R299. -/
  | braf (m : Reg)
  /-- `BSR label`, R300. -/
  | bsr (d : BitVec 12)
  /-- `BSRF Rm`, R301. -/
  | bsrf (m : Reg)
  /-- `JMP @Rm`, R302. -/
  | jmp (m : Reg)
  /-- `JSR @Rm`, R303. -/
  | jsr (m : Reg)
  /-- `RTS`, R304. -/
  | rts
  -- 45_system.md: system and control
  /-- `CLRT`, R312. -/
  | clrt
  /-- `CLRMAC`, R313. -/
  | clrmac
  /-- `LDC Rm,SR`, R314. -/
  | ldcSr (m : Reg)
  /-- `LDC Rm,GBR`, R315. -/
  | ldcGbr (m : Reg)
  /-- `LDC Rm,VBR`, R316. -/
  | ldcVbr (m : Reg)
  /-- `LDC.L @Rm+,SR`, R317. -/
  | ldcLSr (m : Reg)
  /-- `LDC.L @Rm+,GBR`, R318. -/
  | ldcLGbr (m : Reg)
  /-- `LDC.L @Rm+,VBR`, R319. -/
  | ldcLVbr (m : Reg)
  /-- `LDS Rm,MACH`, R320. -/
  | ldsMach (m : Reg)
  /-- `LDS Rm,MACL`, R321. -/
  | ldsMacl (m : Reg)
  /-- `LDS Rm,PR`, R322. -/
  | ldsPr (m : Reg)
  /-- `LDS.L @Rm+,MACH`, R323. -/
  | ldsLMach (m : Reg)
  /-- `LDS.L @Rm+,MACL`, R324. -/
  | ldsLMacl (m : Reg)
  /-- `LDS.L @Rm+,PR`, R325. -/
  | ldsLPr (m : Reg)
  /-- `NOP`, R326. -/
  | nop
  /-- `RTE`, R327. -/
  | rte
  /-- `SETT`, R328. -/
  | sett
  /-- `SLEEP`, R329. -/
  | sleep
  /-- `STC SR,Rn`, R330. -/
  | stcSr (n : Reg)
  /-- `STC GBR,Rn`, R331. -/
  | stcGbr (n : Reg)
  /-- `STC VBR,Rn`, R332. -/
  | stcVbr (n : Reg)
  /-- `STC.L SR,@-Rn`, R333. -/
  | stcLSr (n : Reg)
  /-- `STC.L GBR,@-Rn`, R334. -/
  | stcLGbr (n : Reg)
  /-- `STC.L VBR,@-Rn`, R335. -/
  | stcLVbr (n : Reg)
  /-- `STS MACH,Rn`, R336. -/
  | stsMach (n : Reg)
  /-- `STS MACL,Rn`, R337. -/
  | stsMacl (n : Reg)
  /-- `STS PR,Rn`, R338. -/
  | stsPr (n : Reg)
  /-- `STS.L MACH,@-Rn`, R339. -/
  | stsLMach (n : Reg)
  /-- `STS.L MACL,@-Rn`, R340. -/
  | stsLMacl (n : Reg)
  /-- `STS.L PR,@-Rn`, R341. -/
  | stsLPr (n : Reg)
  /-- `TRAPA #imm`, R342. -/
  | trapa (imm : BitVec 8)
deriving DecidableEq, Repr

/-- The `mask` word of an instruction's row of spec/opcode_table.json: the bits the row fixes. -/
def Instr.maskWord : Instr → Half
  | .movImm _ _ => 0xF000
  | .movWPc _ _ => 0xF000
  | .movLPc _ _ => 0xF000
  | .mov _ _ => 0xF00F
  | .movBStore _ _ => 0xF00F
  | .movWStore _ _ => 0xF00F
  | .movLStore _ _ => 0xF00F
  | .movBLoad _ _ => 0xF00F
  | .movWLoad _ _ => 0xF00F
  | .movLLoad _ _ => 0xF00F
  | .movBPreDec _ _ => 0xF00F
  | .movWPreDec _ _ => 0xF00F
  | .movLPreDec _ _ => 0xF00F
  | .movBPostInc _ _ => 0xF00F
  | .movWPostInc _ _ => 0xF00F
  | .movLPostInc _ _ => 0xF00F
  | .movBStoreDisp _ _ => 0xFF00
  | .movWStoreDisp _ _ => 0xFF00
  | .movLStoreDisp _ _ _ => 0xF000
  | .movBLoadDisp _ _ => 0xFF00
  | .movWLoadDisp _ _ => 0xFF00
  | .movLLoadDisp _ _ _ => 0xF000
  | .movBStoreIdx _ _ => 0xF00F
  | .movWStoreIdx _ _ => 0xF00F
  | .movLStoreIdx _ _ => 0xF00F
  | .movBLoadIdx _ _ => 0xF00F
  | .movWLoadIdx _ _ => 0xF00F
  | .movLLoadIdx _ _ => 0xF00F
  | .movBStoreGbr _ => 0xFF00
  | .movWStoreGbr _ => 0xFF00
  | .movLStoreGbr _ => 0xFF00
  | .movBLoadGbr _ => 0xFF00
  | .movWLoadGbr _ => 0xFF00
  | .movLLoadGbr _ => 0xFF00
  | .mova _ => 0xFF00
  | .movt _ => 0xF0FF
  | .swapB _ _ => 0xF00F
  | .swapW _ _ => 0xF00F
  | .xtrct _ _ => 0xF00F
  | .add _ _ => 0xF00F
  | .addImm _ _ => 0xF000
  | .addc _ _ => 0xF00F
  | .addv _ _ => 0xF00F
  | .cmpEqImm _ => 0xFF00
  | .cmpEq _ _ => 0xF00F
  | .cmpHs _ _ => 0xF00F
  | .cmpGe _ _ => 0xF00F
  | .cmpHi _ _ => 0xF00F
  | .cmpGt _ _ => 0xF00F
  | .cmpPz _ => 0xF0FF
  | .cmpPl _ => 0xF0FF
  | .cmpStr _ _ => 0xF00F
  | .div1 _ _ => 0xF00F
  | .div0s _ _ => 0xF00F
  | .div0u => 0xFFFF
  | .dmulsL _ _ => 0xF00F
  | .dmuluL _ _ => 0xF00F
  | .dt _ => 0xF0FF
  | .extsB _ _ => 0xF00F
  | .extsW _ _ => 0xF00F
  | .extuB _ _ => 0xF00F
  | .extuW _ _ => 0xF00F
  | .macL _ _ => 0xF00F
  | .macW _ _ => 0xF00F
  | .mulL _ _ => 0xF00F
  | .mulsW _ _ => 0xF00F
  | .muluW _ _ => 0xF00F
  | .neg _ _ => 0xF00F
  | .negc _ _ => 0xF00F
  | .sub _ _ => 0xF00F
  | .subc _ _ => 0xF00F
  | .subv _ _ => 0xF00F
  | .and _ _ => 0xF00F
  | .andImm _ => 0xFF00
  | .andB _ => 0xFF00
  | .not _ _ => 0xF00F
  | .or _ _ => 0xF00F
  | .orImm _ => 0xFF00
  | .orB _ => 0xFF00
  | .tas _ => 0xF0FF
  | .tst _ _ => 0xF00F
  | .tstImm _ => 0xFF00
  | .tstB _ => 0xFF00
  | .xor _ _ => 0xF00F
  | .xorImm _ => 0xFF00
  | .xorB _ => 0xFF00
  | .rotl _ => 0xF0FF
  | .rotr _ => 0xF0FF
  | .rotcl _ => 0xF0FF
  | .rotcr _ => 0xF0FF
  | .shal _ => 0xF0FF
  | .shar _ => 0xF0FF
  | .shll _ => 0xF0FF
  | .shlr _ => 0xF0FF
  | .shll2 _ => 0xF0FF
  | .shlr2 _ => 0xF0FF
  | .shll8 _ => 0xF0FF
  | .shlr8 _ => 0xF0FF
  | .shll16 _ => 0xF0FF
  | .shlr16 _ => 0xF0FF
  | .bf _ => 0xFF00
  | .bfS _ => 0xFF00
  | .bt _ => 0xFF00
  | .btS _ => 0xFF00
  | .bra _ => 0xF000
  | .braf _ => 0xF0FF
  | .bsr _ => 0xF000
  | .bsrf _ => 0xF0FF
  | .jmp _ => 0xF0FF
  | .jsr _ => 0xF0FF
  | .rts => 0xFFFF
  | .clrt => 0xFFFF
  | .clrmac => 0xFFFF
  | .ldcSr _ => 0xF0FF
  | .ldcGbr _ => 0xF0FF
  | .ldcVbr _ => 0xF0FF
  | .ldcLSr _ => 0xF0FF
  | .ldcLGbr _ => 0xF0FF
  | .ldcLVbr _ => 0xF0FF
  | .ldsMach _ => 0xF0FF
  | .ldsMacl _ => 0xF0FF
  | .ldsPr _ => 0xF0FF
  | .ldsLMach _ => 0xF0FF
  | .ldsLMacl _ => 0xF0FF
  | .ldsLPr _ => 0xF0FF
  | .nop => 0xFFFF
  | .rte => 0xFFFF
  | .sett => 0xFFFF
  | .sleep => 0xFFFF
  | .stcSr _ => 0xF0FF
  | .stcGbr _ => 0xF0FF
  | .stcVbr _ => 0xF0FF
  | .stcLSr _ => 0xF0FF
  | .stcLGbr _ => 0xF0FF
  | .stcLVbr _ => 0xF0FF
  | .stsMach _ => 0xF0FF
  | .stsMacl _ => 0xF0FF
  | .stsPr _ => 0xF0FF
  | .stsLMach _ => 0xF0FF
  | .stsLMacl _ => 0xF0FF
  | .stsLPr _ => 0xF0FF
  | .trapa _ => 0xFF00

/-- The `match` word of an instruction's row of spec/opcode_table.json: its encoding with every
operand field 0. It names the instruction's form where a parameter speaks of forms (`NOINT_SET`,
`EXEC_LATENCY`). -/
def Instr.matchWord : Instr → Half
  | .movImm _ _ => 0xE000
  | .movWPc _ _ => 0x9000
  | .movLPc _ _ => 0xD000
  | .mov _ _ => 0x6003
  | .movBStore _ _ => 0x2000
  | .movWStore _ _ => 0x2001
  | .movLStore _ _ => 0x2002
  | .movBLoad _ _ => 0x6000
  | .movWLoad _ _ => 0x6001
  | .movLLoad _ _ => 0x6002
  | .movBPreDec _ _ => 0x2004
  | .movWPreDec _ _ => 0x2005
  | .movLPreDec _ _ => 0x2006
  | .movBPostInc _ _ => 0x6004
  | .movWPostInc _ _ => 0x6005
  | .movLPostInc _ _ => 0x6006
  | .movBStoreDisp _ _ => 0x8000
  | .movWStoreDisp _ _ => 0x8100
  | .movLStoreDisp _ _ _ => 0x1000
  | .movBLoadDisp _ _ => 0x8400
  | .movWLoadDisp _ _ => 0x8500
  | .movLLoadDisp _ _ _ => 0x5000
  | .movBStoreIdx _ _ => 0x0004
  | .movWStoreIdx _ _ => 0x0005
  | .movLStoreIdx _ _ => 0x0006
  | .movBLoadIdx _ _ => 0x000C
  | .movWLoadIdx _ _ => 0x000D
  | .movLLoadIdx _ _ => 0x000E
  | .movBStoreGbr _ => 0xC000
  | .movWStoreGbr _ => 0xC100
  | .movLStoreGbr _ => 0xC200
  | .movBLoadGbr _ => 0xC400
  | .movWLoadGbr _ => 0xC500
  | .movLLoadGbr _ => 0xC600
  | .mova _ => 0xC700
  | .movt _ => 0x0029
  | .swapB _ _ => 0x6008
  | .swapW _ _ => 0x6009
  | .xtrct _ _ => 0x200D
  | .add _ _ => 0x300C
  | .addImm _ _ => 0x7000
  | .addc _ _ => 0x300E
  | .addv _ _ => 0x300F
  | .cmpEqImm _ => 0x8800
  | .cmpEq _ _ => 0x3000
  | .cmpHs _ _ => 0x3002
  | .cmpGe _ _ => 0x3003
  | .cmpHi _ _ => 0x3006
  | .cmpGt _ _ => 0x3007
  | .cmpPz _ => 0x4011
  | .cmpPl _ => 0x4015
  | .cmpStr _ _ => 0x200C
  | .div1 _ _ => 0x3004
  | .div0s _ _ => 0x2007
  | .div0u => 0x0019
  | .dmulsL _ _ => 0x300D
  | .dmuluL _ _ => 0x3005
  | .dt _ => 0x4010
  | .extsB _ _ => 0x600E
  | .extsW _ _ => 0x600F
  | .extuB _ _ => 0x600C
  | .extuW _ _ => 0x600D
  | .macL _ _ => 0x000F
  | .macW _ _ => 0x400F
  | .mulL _ _ => 0x0007
  | .mulsW _ _ => 0x200F
  | .muluW _ _ => 0x200E
  | .neg _ _ => 0x600B
  | .negc _ _ => 0x600A
  | .sub _ _ => 0x3008
  | .subc _ _ => 0x300A
  | .subv _ _ => 0x300B
  | .and _ _ => 0x2009
  | .andImm _ => 0xC900
  | .andB _ => 0xCD00
  | .not _ _ => 0x6007
  | .or _ _ => 0x200B
  | .orImm _ => 0xCB00
  | .orB _ => 0xCF00
  | .tas _ => 0x401B
  | .tst _ _ => 0x2008
  | .tstImm _ => 0xC800
  | .tstB _ => 0xCC00
  | .xor _ _ => 0x200A
  | .xorImm _ => 0xCA00
  | .xorB _ => 0xCE00
  | .rotl _ => 0x4004
  | .rotr _ => 0x4005
  | .rotcl _ => 0x4024
  | .rotcr _ => 0x4025
  | .shal _ => 0x4020
  | .shar _ => 0x4021
  | .shll _ => 0x4000
  | .shlr _ => 0x4001
  | .shll2 _ => 0x4008
  | .shlr2 _ => 0x4009
  | .shll8 _ => 0x4018
  | .shlr8 _ => 0x4019
  | .shll16 _ => 0x4028
  | .shlr16 _ => 0x4029
  | .bf _ => 0x8B00
  | .bfS _ => 0x8F00
  | .bt _ => 0x8900
  | .btS _ => 0x8D00
  | .bra _ => 0xA000
  | .braf _ => 0x0023
  | .bsr _ => 0xB000
  | .bsrf _ => 0x0003
  | .jmp _ => 0x402B
  | .jsr _ => 0x400B
  | .rts => 0x000B
  | .clrt => 0x0008
  | .clrmac => 0x0028
  | .ldcSr _ => 0x400E
  | .ldcGbr _ => 0x401E
  | .ldcVbr _ => 0x402E
  | .ldcLSr _ => 0x4007
  | .ldcLGbr _ => 0x4017
  | .ldcLVbr _ => 0x4027
  | .ldsMach _ => 0x400A
  | .ldsMacl _ => 0x401A
  | .ldsPr _ => 0x402A
  | .ldsLMach _ => 0x4006
  | .ldsLMacl _ => 0x4016
  | .ldsLPr _ => 0x4026
  | .nop => 0x0009
  | .rte => 0x002B
  | .sett => 0x0018
  | .sleep => 0x001B
  | .stcSr _ => 0x0002
  | .stcGbr _ => 0x0012
  | .stcVbr _ => 0x0022
  | .stcLSr _ => 0x4003
  | .stcLGbr _ => 0x4013
  | .stcLVbr _ => 0x4023
  | .stsMach _ => 0x000A
  | .stsMacl _ => 0x001A
  | .stsPr _ => 0x002A
  | .stsLMach _ => 0x4002
  | .stsLMacl _ => 0x4012
  | .stsLPr _ => 0x4022
  | .trapa _ => 0xC300

/-- The forms that exist only on SH-2 (30_encoding.md R129). -/
def Instr.sh2Only : Instr → Bool
  | .movImm _ _ => false
  | .movWPc _ _ => false
  | .movLPc _ _ => false
  | .mov _ _ => false
  | .movBStore _ _ => false
  | .movWStore _ _ => false
  | .movLStore _ _ => false
  | .movBLoad _ _ => false
  | .movWLoad _ _ => false
  | .movLLoad _ _ => false
  | .movBPreDec _ _ => false
  | .movWPreDec _ _ => false
  | .movLPreDec _ _ => false
  | .movBPostInc _ _ => false
  | .movWPostInc _ _ => false
  | .movLPostInc _ _ => false
  | .movBStoreDisp _ _ => false
  | .movWStoreDisp _ _ => false
  | .movLStoreDisp _ _ _ => false
  | .movBLoadDisp _ _ => false
  | .movWLoadDisp _ _ => false
  | .movLLoadDisp _ _ _ => false
  | .movBStoreIdx _ _ => false
  | .movWStoreIdx _ _ => false
  | .movLStoreIdx _ _ => false
  | .movBLoadIdx _ _ => false
  | .movWLoadIdx _ _ => false
  | .movLLoadIdx _ _ => false
  | .movBStoreGbr _ => false
  | .movWStoreGbr _ => false
  | .movLStoreGbr _ => false
  | .movBLoadGbr _ => false
  | .movWLoadGbr _ => false
  | .movLLoadGbr _ => false
  | .mova _ => false
  | .movt _ => false
  | .swapB _ _ => false
  | .swapW _ _ => false
  | .xtrct _ _ => false
  | .add _ _ => false
  | .addImm _ _ => false
  | .addc _ _ => false
  | .addv _ _ => false
  | .cmpEqImm _ => false
  | .cmpEq _ _ => false
  | .cmpHs _ _ => false
  | .cmpGe _ _ => false
  | .cmpHi _ _ => false
  | .cmpGt _ _ => false
  | .cmpPz _ => false
  | .cmpPl _ => false
  | .cmpStr _ _ => false
  | .div1 _ _ => false
  | .div0s _ _ => false
  | .div0u => false
  | .dmulsL _ _ => true
  | .dmuluL _ _ => true
  | .dt _ => true
  | .extsB _ _ => false
  | .extsW _ _ => false
  | .extuB _ _ => false
  | .extuW _ _ => false
  | .macL _ _ => true
  | .macW _ _ => false
  | .mulL _ _ => true
  | .mulsW _ _ => false
  | .muluW _ _ => false
  | .neg _ _ => false
  | .negc _ _ => false
  | .sub _ _ => false
  | .subc _ _ => false
  | .subv _ _ => false
  | .and _ _ => false
  | .andImm _ => false
  | .andB _ => false
  | .not _ _ => false
  | .or _ _ => false
  | .orImm _ => false
  | .orB _ => false
  | .tas _ => false
  | .tst _ _ => false
  | .tstImm _ => false
  | .tstB _ => false
  | .xor _ _ => false
  | .xorImm _ => false
  | .xorB _ => false
  | .rotl _ => false
  | .rotr _ => false
  | .rotcl _ => false
  | .rotcr _ => false
  | .shal _ => false
  | .shar _ => false
  | .shll _ => false
  | .shlr _ => false
  | .shll2 _ => false
  | .shlr2 _ => false
  | .shll8 _ => false
  | .shlr8 _ => false
  | .shll16 _ => false
  | .shlr16 _ => false
  | .bf _ => false
  | .bfS _ => true
  | .bt _ => false
  | .btS _ => true
  | .bra _ => false
  | .braf _ => true
  | .bsr _ => false
  | .bsrf _ => true
  | .jmp _ => false
  | .jsr _ => false
  | .rts => false
  | .clrt => false
  | .clrmac => false
  | .ldcSr _ => false
  | .ldcGbr _ => false
  | .ldcVbr _ => false
  | .ldcLSr _ => false
  | .ldcLGbr _ => false
  | .ldcLVbr _ => false
  | .ldsMach _ => false
  | .ldsMacl _ => false
  | .ldsPr _ => false
  | .ldsLMach _ => false
  | .ldsLMacl _ => false
  | .ldsLPr _ => false
  | .nop => false
  | .rte => false
  | .sett => false
  | .sleep => false
  | .stcSr _ => false
  | .stcGbr _ => false
  | .stcVbr _ => false
  | .stcLSr _ => false
  | .stcLGbr _ => false
  | .stcLVbr _ => false
  | .stsMach _ => false
  | .stsMacl _ => false
  | .stsPr _ => false
  | .stsLMach _ => false
  | .stsLMacl _ => false
  | .stsLPr _ => false
  | .trapa _ => false

end Sys2Proof
end

