-- ==== Sys2Proof/WellFormed.lean ====
section
/-! DEFINITION. Well-formedness of an instruction as syntax. The operand fields are bit vectors of
the encoding's widths, so no operand can be out of range; what is left to check is whether the form
exists on the machine at all (30_encoding.md R129). -/

namespace Sys2Proof

/-- An instruction is well formed on a machine whose parameter `SH2_EXTENSIONS` is `sh2` when its
form exists there: the nine SH-2-only forms exist only when the parameter is true
(30_encoding.md R129). -/
def Instr.wellFormed (sh2 : Bool) (i : Instr) : Bool :=
  sh2 || !i.sh2Only

end Sys2Proof
end

