-- ==== Sys2Proof/Decode.lean ====
section
/-! DEFINITION. From the bytes of an instruction to the instruction, and back. Decoding follows the
opcode map of 30_encoding.md R130, nibble by nibble, and is total: a byte list is an instruction
with the rest of the list, or it is rejected by name. The encoder after it is written from the
encoding patterns of spec/opcode_table.json. -/

namespace Sys2Proof

/-- Why a byte list is no instruction. -/
inductive DecodeError where
  /-- Fewer than the two bytes every instruction has (30_encoding.md R120). -/
  | truncated
  /-- A word that matches no row of the opcode table (30_encoding.md R131). -/
  | illegal (word : Half)
deriving DecidableEq, Repr

/-- The four nibbles of a word, bits 15:12 first: nibble `k` is bits `4k+3 : 4k`. -/
def nibble (w : Half) (k : Nat) : Reg := w.extractLsb' (4 * k) 4

/-- The 8-bit field whose upper nibble is `a`. -/
def field8 (a b : Reg) : BitVec 8 := a ++ b

/-- The 12-bit field whose upper nibble is `a`. -/
def field12 (a b c : Reg) : BitVec 12 := a ++ (b ++ c : BitVec 8)

/-- Bits 15:12 = 0x0 (R130): the indexed moves, MUL.L, MAC.L, STC, STS, BSRF, BRAF, MOVT and the
words without operands. -/
def decode0 (n m z : Reg) : Option Instr :=
  match z.toNat with
  | 0x2 =>
    match m.toNat with
    | 0x0 => some (.stcSr n)
    | 0x1 => some (.stcGbr n)
    | 0x2 => some (.stcVbr n)
    | _ => none
  | 0x3 =>
    match m.toNat with
    | 0x0 => some (.bsrf n)
    | 0x2 => some (.braf n)
    | _ => none
  | 0x4 => some (.movBStoreIdx m n)
  | 0x5 => some (.movWStoreIdx m n)
  | 0x6 => some (.movLStoreIdx m n)
  | 0x7 => some (.mulL m n)
  | 0x8 =>
    match n.toNat, m.toNat with
    | 0x0, 0x0 => some .clrt
    | 0x0, 0x1 => some .sett
    | 0x0, 0x2 => some .clrmac
    | _, _ => none
  | 0x9 =>
    match m.toNat with
    | 0x0 => if n = 0 then some .nop else none
    | 0x1 => if n = 0 then some .div0u else none
    | 0x2 => some (.movt n)
    | _ => none
  | 0xA =>
    match m.toNat with
    | 0x0 => some (.stsMach n)
    | 0x1 => some (.stsMacl n)
    | 0x2 => some (.stsPr n)
    | _ => none
  | 0xB =>
    match n.toNat, m.toNat with
    | 0x0, 0x0 => some .rts
    | 0x0, 0x1 => some .sleep
    | 0x0, 0x2 => some .rte
    | _, _ => none
  | 0xC => some (.movBLoadIdx m n)
  | 0xD => some (.movWLoadIdx m n)
  | 0xE => some (.movLLoadIdx m n)
  | 0xF => some (.macL m n)
  | _ => none

/-- Bits 15:12 = 0x2 (R130). -/
def decode2 (n m z : Reg) : Option Instr :=
  match z.toNat with
  | 0x0 => some (.movBStore m n)
  | 0x1 => some (.movWStore m n)
  | 0x2 => some (.movLStore m n)
  | 0x4 => some (.movBPreDec m n)
  | 0x5 => some (.movWPreDec m n)
  | 0x6 => some (.movLPreDec m n)
  | 0x7 => some (.div0s m n)
  | 0x8 => some (.tst m n)
  | 0x9 => some (.and m n)
  | 0xA => some (.xor m n)
  | 0xB => some (.or m n)
  | 0xC => some (.cmpStr m n)
  | 0xD => some (.xtrct m n)
  | 0xE => some (.muluW m n)
  | 0xF => some (.mulsW m n)
  | _ => none

/-- Bits 15:12 = 0x3 (R130). -/
def decode3 (n m z : Reg) : Option Instr :=
  match z.toNat with
  | 0x0 => some (.cmpEq m n)
  | 0x2 => some (.cmpHs m n)
  | 0x3 => some (.cmpGe m n)
  | 0x4 => some (.div1 m n)
  | 0x5 => some (.dmuluL m n)
  | 0x6 => some (.cmpHi m n)
  | 0x7 => some (.cmpGt m n)
  | 0x8 => some (.sub m n)
  | 0xA => some (.subc m n)
  | 0xB => some (.subv m n)
  | 0xC => some (.add m n)
  | 0xD => some (.dmulsL m n)
  | 0xE => some (.addc m n)
  | 0xF => some (.addv m n)
  | _ => none

/-- Bits 15:12 = 0x4 (R130): bits 3:0 = F is MAC.W, every other form is named by bits 7:0, and the
one register of the form is bits 11:8. -/
def decode4 (r y z : Reg) : Option Instr :=
  match z.toNat with
  | 0x0 =>
    match y.toNat with
    | 0x0 => some (.shll r)
    | 0x1 => some (.dt r)
    | 0x2 => some (.shal r)
    | _ => none
  | 0x1 =>
    match y.toNat with
    | 0x0 => some (.shlr r)
    | 0x1 => some (.cmpPz r)
    | 0x2 => some (.shar r)
    | _ => none
  | 0x2 =>
    match y.toNat with
    | 0x0 => some (.stsLMach r)
    | 0x1 => some (.stsLMacl r)
    | 0x2 => some (.stsLPr r)
    | _ => none
  | 0x3 =>
    match y.toNat with
    | 0x0 => some (.stcLSr r)
    | 0x1 => some (.stcLGbr r)
    | 0x2 => some (.stcLVbr r)
    | _ => none
  | 0x4 =>
    match y.toNat with
    | 0x0 => some (.rotl r)
    | 0x2 => some (.rotcl r)
    | _ => none
  | 0x5 =>
    match y.toNat with
    | 0x0 => some (.rotr r)
    | 0x1 => some (.cmpPl r)
    | 0x2 => some (.rotcr r)
    | _ => none
  | 0x6 =>
    match y.toNat with
    | 0x0 => some (.ldsLMach r)
    | 0x1 => some (.ldsLMacl r)
    | 0x2 => some (.ldsLPr r)
    | _ => none
  | 0x7 =>
    match y.toNat with
    | 0x0 => some (.ldcLSr r)
    | 0x1 => some (.ldcLGbr r)
    | 0x2 => some (.ldcLVbr r)
    | _ => none
  | 0x8 =>
    match y.toNat with
    | 0x0 => some (.shll2 r)
    | 0x1 => some (.shll8 r)
    | 0x2 => some (.shll16 r)
    | _ => none
  | 0x9 =>
    match y.toNat with
    | 0x0 => some (.shlr2 r)
    | 0x1 => some (.shlr8 r)
    | 0x2 => some (.shlr16 r)
    | _ => none
  | 0xA =>
    match y.toNat with
    | 0x0 => some (.ldsMach r)
    | 0x1 => some (.ldsMacl r)
    | 0x2 => some (.ldsPr r)
    | _ => none
  | 0xB =>
    match y.toNat with
    | 0x0 => some (.jsr r)
    | 0x1 => some (.tas r)
    | 0x2 => some (.jmp r)
    | _ => none
  | 0xE =>
    match y.toNat with
    | 0x0 => some (.ldcSr r)
    | 0x1 => some (.ldcGbr r)
    | 0x2 => some (.ldcVbr r)
    | _ => none
  | 0xF => some (.macW y r)
  | _ => none

/-- Bits 15:12 = 0x6 (R130). -/
def decode6 (n m z : Reg) : Option Instr :=
  match z.toNat with
  | 0x0 => some (.movBLoad m n)
  | 0x1 => some (.movWLoad m n)
  | 0x2 => some (.movLLoad m n)
  | 0x3 => some (.mov m n)
  | 0x4 => some (.movBPostInc m n)
  | 0x5 => some (.movWPostInc m n)
  | 0x6 => some (.movLPostInc m n)
  | 0x7 => some (.not m n)
  | 0x8 => some (.swapB m n)
  | 0x9 => some (.swapW m n)
  | 0xA => some (.negc m n)
  | 0xB => some (.neg m n)
  | 0xC => some (.extuB m n)
  | 0xD => some (.extuW m n)
  | 0xE => some (.extsB m n)
  | 0xF => some (.extsW m n)
  | _ => none

/-- Bits 15:12 = 0x8 (R130), named by bits 11:8. -/
def decode8 (x y z : Reg) : Option Instr :=
  match x.toNat with
  | 0x0 => some (.movBStoreDisp z y)
  | 0x1 => some (.movWStoreDisp z y)
  | 0x4 => some (.movBLoadDisp z y)
  | 0x5 => some (.movWLoadDisp z y)
  | 0x8 => some (.cmpEqImm (field8 y z))
  | 0x9 => some (.bt (field8 y z))
  | 0xB => some (.bf (field8 y z))
  | 0xD => some (.btS (field8 y z))
  | 0xF => some (.bfS (field8 y z))
  | _ => none

/-- Bits 15:12 = 0xC (R130), named by bits 11:8. -/
def decodeC (x y z : Reg) : Option Instr :=
  match x.toNat with
  | 0x0 => some (.movBStoreGbr (field8 y z))
  | 0x1 => some (.movWStoreGbr (field8 y z))
  | 0x2 => some (.movLStoreGbr (field8 y z))
  | 0x3 => some (.trapa (field8 y z))
  | 0x4 => some (.movBLoadGbr (field8 y z))
  | 0x5 => some (.movWLoadGbr (field8 y z))
  | 0x6 => some (.movLLoadGbr (field8 y z))
  | 0x7 => some (.mova (field8 y z))
  | 0x8 => some (.tstImm (field8 y z))
  | 0x9 => some (.andImm (field8 y z))
  | 0xA => some (.xorImm (field8 y z))
  | 0xB => some (.orImm (field8 y z))
  | 0xC => some (.tstB (field8 y z))
  | 0xD => some (.andB (field8 y z))
  | 0xE => some (.xorB (field8 y z))
  | 0xF => some (.orB (field8 y z))
  | _ => none

/-- The opcode map of R130, by bits 15:12. -/
def decodeNibbles (a x y z : Reg) : Option Instr :=
  match a.toNat with
  | 0x0 => decode0 x y z
  | 0x1 => some (.movLStoreDisp y z x)
  | 0x2 => decode2 x y z
  | 0x3 => decode3 x y z
  | 0x4 => decode4 x y z
  | 0x5 => some (.movLLoadDisp z y x)
  | 0x6 => decode6 x y z
  | 0x7 => some (.addImm (field8 y z) x)
  | 0x8 => decode8 x y z
  | 0x9 => some (.movWPc (field8 y z) x)
  | 0xA => some (.bra (field12 x y z))
  | 0xB => some (.bsr (field12 x y z))
  | 0xC => decodeC x y z
  | 0xD => some (.movLPc (field8 y z) x)
  | 0xE => some (.movImm (field8 y z) x)
  | _ => none

/-- The instruction of a 16-bit word, or none for a word that matches no row of the opcode table
(30_encoding.md R127, R131). -/
def decodeWord (w : Half) : Option Instr :=
  decodeNibbles (nibble w 3) (nibble w 2) (nibble w 1) (nibble w 0)

/-- Decoding a byte list: the first two bytes, most significant first (30_encoding.md R120), are
one instruction, and the rest of the list is handed back. -/
def decode : List Byte → Except DecodeError (Instr × List Byte)
  | b₁ :: b₀ :: rest =>
    match decodeWord (b₁ ++ b₀) with
    | some i => .ok (i, rest)
    | none => .error (.illegal (b₁ ++ b₀))
  | _ => .error .truncated

/-- The instruction the decoder reads from an instruction of the opcode table whose bits are `w`,
numbered as the table numbers them: every form is one 16-bit word (30_encoding.md R120), laid out
most significant byte first. -/
def decodeTableWord (nbits w : Nat) : Option Instr :=
  let word : Half := BitVec.ofNat 16 (w % 2 ^ nbits)
  match decode [word.extractLsb' 8 8, word.extractLsb' 0 8] with
  | .ok (i, _) => some i
  | .error _ => none

/-! ### The encoder -/

/-- The word of four nibbles, bits 15:12 first. -/
def word (a x y z : Reg) : Half := (a ++ x : BitVec 8) ++ (y ++ z : BitVec 8)

/-- The nibbles of an 8-bit field. -/
def hi8 (v : BitVec 8) : Reg := v.extractLsb' 4 4
def lo8 (v : BitVec 8) : Reg := v.extractLsb' 0 4

/-- The nibbles of a 12-bit field. -/
def hi12 (v : BitVec 12) : Reg := v.extractLsb' 8 4
def mid12 (v : BitVec 12) : Reg := v.extractLsb' 4 4
def lo12 (v : BitVec 12) : Reg := v.extractLsb' 0 4

/-- The word of an instruction, from the encoding pattern of its row of the opcode table. -/
def encodeWord : Instr → Half
  | .movImm imm n => word 0xE n (hi8 imm) (lo8 imm)
  | .movWPc d n => word 0x9 n (hi8 d) (lo8 d)
  | .movLPc d n => word 0xD n (hi8 d) (lo8 d)
  | .mov m n => word 0x6 n m 0x3
  | .movBStore m n => word 0x2 n m 0x0
  | .movWStore m n => word 0x2 n m 0x1
  | .movLStore m n => word 0x2 n m 0x2
  | .movBLoad m n => word 0x6 n m 0x0
  | .movWLoad m n => word 0x6 n m 0x1
  | .movLLoad m n => word 0x6 n m 0x2
  | .movBPreDec m n => word 0x2 n m 0x4
  | .movWPreDec m n => word 0x2 n m 0x5
  | .movLPreDec m n => word 0x2 n m 0x6
  | .movBPostInc m n => word 0x6 n m 0x4
  | .movWPostInc m n => word 0x6 n m 0x5
  | .movLPostInc m n => word 0x6 n m 0x6
  | .movBStoreDisp d n => word 0x8 0x0 n d
  | .movWStoreDisp d n => word 0x8 0x1 n d
  | .movLStoreDisp m d n => word 0x1 n m d
  | .movBLoadDisp d m => word 0x8 0x4 m d
  | .movWLoadDisp d m => word 0x8 0x5 m d
  | .movLLoadDisp d m n => word 0x5 n m d
  | .movBStoreIdx m n => word 0x0 n m 0x4
  | .movWStoreIdx m n => word 0x0 n m 0x5
  | .movLStoreIdx m n => word 0x0 n m 0x6
  | .movBLoadIdx m n => word 0x0 n m 0xC
  | .movWLoadIdx m n => word 0x0 n m 0xD
  | .movLLoadIdx m n => word 0x0 n m 0xE
  | .movBStoreGbr d => word 0xC 0x0 (hi8 d) (lo8 d)
  | .movWStoreGbr d => word 0xC 0x1 (hi8 d) (lo8 d)
  | .movLStoreGbr d => word 0xC 0x2 (hi8 d) (lo8 d)
  | .movBLoadGbr d => word 0xC 0x4 (hi8 d) (lo8 d)
  | .movWLoadGbr d => word 0xC 0x5 (hi8 d) (lo8 d)
  | .movLLoadGbr d => word 0xC 0x6 (hi8 d) (lo8 d)
  | .mova d => word 0xC 0x7 (hi8 d) (lo8 d)
  | .movt n => word 0x0 n 0x2 0x9
  | .swapB m n => word 0x6 n m 0x8
  | .swapW m n => word 0x6 n m 0x9
  | .xtrct m n => word 0x2 n m 0xD
  | .add m n => word 0x3 n m 0xC
  | .addImm imm n => word 0x7 n (hi8 imm) (lo8 imm)
  | .addc m n => word 0x3 n m 0xE
  | .addv m n => word 0x3 n m 0xF
  | .cmpEqImm imm => word 0x8 0x8 (hi8 imm) (lo8 imm)
  | .cmpEq m n => word 0x3 n m 0x0
  | .cmpHs m n => word 0x3 n m 0x2
  | .cmpGe m n => word 0x3 n m 0x3
  | .cmpHi m n => word 0x3 n m 0x6
  | .cmpGt m n => word 0x3 n m 0x7
  | .cmpPz n => word 0x4 n 0x1 0x1
  | .cmpPl n => word 0x4 n 0x1 0x5
  | .cmpStr m n => word 0x2 n m 0xC
  | .div1 m n => word 0x3 n m 0x4
  | .div0s m n => word 0x2 n m 0x7
  | .div0u => word 0x0 0x0 0x1 0x9
  | .dmulsL m n => word 0x3 n m 0xD
  | .dmuluL m n => word 0x3 n m 0x5
  | .dt n => word 0x4 n 0x1 0x0
  | .extsB m n => word 0x6 n m 0xE
  | .extsW m n => word 0x6 n m 0xF
  | .extuB m n => word 0x6 n m 0xC
  | .extuW m n => word 0x6 n m 0xD
  | .macL m n => word 0x0 n m 0xF
  | .macW m n => word 0x4 n m 0xF
  | .mulL m n => word 0x0 n m 0x7
  | .mulsW m n => word 0x2 n m 0xF
  | .muluW m n => word 0x2 n m 0xE
  | .neg m n => word 0x6 n m 0xB
  | .negc m n => word 0x6 n m 0xA
  | .sub m n => word 0x3 n m 0x8
  | .subc m n => word 0x3 n m 0xA
  | .subv m n => word 0x3 n m 0xB
  | .and m n => word 0x2 n m 0x9
  | .andImm imm => word 0xC 0x9 (hi8 imm) (lo8 imm)
  | .andB imm => word 0xC 0xD (hi8 imm) (lo8 imm)
  | .not m n => word 0x6 n m 0x7
  | .or m n => word 0x2 n m 0xB
  | .orImm imm => word 0xC 0xB (hi8 imm) (lo8 imm)
  | .orB imm => word 0xC 0xF (hi8 imm) (lo8 imm)
  | .tas n => word 0x4 n 0x1 0xB
  | .tst m n => word 0x2 n m 0x8
  | .tstImm imm => word 0xC 0x8 (hi8 imm) (lo8 imm)
  | .tstB imm => word 0xC 0xC (hi8 imm) (lo8 imm)
  | .xor m n => word 0x2 n m 0xA
  | .xorImm imm => word 0xC 0xA (hi8 imm) (lo8 imm)
  | .xorB imm => word 0xC 0xE (hi8 imm) (lo8 imm)
  | .rotl n => word 0x4 n 0x0 0x4
  | .rotr n => word 0x4 n 0x0 0x5
  | .rotcl n => word 0x4 n 0x2 0x4
  | .rotcr n => word 0x4 n 0x2 0x5
  | .shal n => word 0x4 n 0x2 0x0
  | .shar n => word 0x4 n 0x2 0x1
  | .shll n => word 0x4 n 0x0 0x0
  | .shlr n => word 0x4 n 0x0 0x1
  | .shll2 n => word 0x4 n 0x0 0x8
  | .shlr2 n => word 0x4 n 0x0 0x9
  | .shll8 n => word 0x4 n 0x1 0x8
  | .shlr8 n => word 0x4 n 0x1 0x9
  | .shll16 n => word 0x4 n 0x2 0x8
  | .shlr16 n => word 0x4 n 0x2 0x9
  | .bf d => word 0x8 0xB (hi8 d) (lo8 d)
  | .bfS d => word 0x8 0xF (hi8 d) (lo8 d)
  | .bt d => word 0x8 0x9 (hi8 d) (lo8 d)
  | .btS d => word 0x8 0xD (hi8 d) (lo8 d)
  | .bra d => word 0xA (hi12 d) (mid12 d) (lo12 d)
  | .braf m => word 0x0 m 0x2 0x3
  | .bsr d => word 0xB (hi12 d) (mid12 d) (lo12 d)
  | .bsrf m => word 0x0 m 0x0 0x3
  | .jmp m => word 0x4 m 0x2 0xB
  | .jsr m => word 0x4 m 0x0 0xB
  | .rts => word 0x0 0x0 0x0 0xB
  | .clrt => word 0x0 0x0 0x0 0x8
  | .clrmac => word 0x0 0x0 0x2 0x8
  | .ldcSr m => word 0x4 m 0x0 0xE
  | .ldcGbr m => word 0x4 m 0x1 0xE
  | .ldcVbr m => word 0x4 m 0x2 0xE
  | .ldcLSr m => word 0x4 m 0x0 0x7
  | .ldcLGbr m => word 0x4 m 0x1 0x7
  | .ldcLVbr m => word 0x4 m 0x2 0x7
  | .ldsMach m => word 0x4 m 0x0 0xA
  | .ldsMacl m => word 0x4 m 0x1 0xA
  | .ldsPr m => word 0x4 m 0x2 0xA
  | .ldsLMach m => word 0x4 m 0x0 0x6
  | .ldsLMacl m => word 0x4 m 0x1 0x6
  | .ldsLPr m => word 0x4 m 0x2 0x6
  | .nop => word 0x0 0x0 0x0 0x9
  | .rte => word 0x0 0x0 0x2 0xB
  | .sett => word 0x0 0x0 0x1 0x8
  | .sleep => word 0x0 0x0 0x1 0xB
  | .stcSr n => word 0x0 n 0x0 0x2
  | .stcGbr n => word 0x0 n 0x1 0x2
  | .stcVbr n => word 0x0 n 0x2 0x2
  | .stcLSr n => word 0x4 n 0x0 0x3
  | .stcLGbr n => word 0x4 n 0x1 0x3
  | .stcLVbr n => word 0x4 n 0x2 0x3
  | .stsMach n => word 0x0 n 0x0 0xA
  | .stsMacl n => word 0x0 n 0x1 0xA
  | .stsPr n => word 0x0 n 0x2 0xA
  | .stsLMach n => word 0x4 n 0x0 0x2
  | .stsLMacl n => word 0x4 n 0x1 0x2
  | .stsLPr n => word 0x4 n 0x2 0x2
  | .trapa imm => word 0xC 0x3 (hi8 imm) (lo8 imm)

/-- The bytes of an instruction, as the hardware stores them: big-endian (20_memory.md R77, R79). -/
def encode (i : Instr) : List Byte :=
  [(encodeWord i).extractLsb' 8 8, (encodeWord i).extractLsb' 0 8]

end Sys2Proof
end

