-- ==== Sys2Proof/Machine/Operands.lean ====
section
/-! DEFINITION. Operand assembly: sign and zero extension (00_scope.md R11), and the effective
address or value of every operand form (30_encoding.md R123, R124). -/

namespace Sys2Proof.Machine

/-! ### Extension (00_scope.md R11) -/

/-- `sext_8` of an 8-bit value. -/
def sext8 (v : BitVec 8) : Word := v.signExtend 32

/-- `sext_16` of a 16-bit value. -/
def sext16 (v : Half) : Word := v.signExtend 32

/-- `zext_1` of a flag. -/
def zext1 (b : Bool) : Word := if b then 1 else 0

/-- The low byte `v[7:0]`. -/
def lowByte (v : Word) : Byte := v.extractLsb' 0 8

/-- The low half `v[15:0]`. -/
def lowHalf (v : Word) : Half := v.extractLsb' 0 16

/-- The high half `v[31:16]`. -/
def highHalf (v : Word) : Half := v.extractLsb' 16 16

/-! ### Access widths (20_memory.md R91) -/

/-- The width of a data access: `.B`, `.W` or `.L`. -/
inductive Size where
  | byte
  | word
  | long
deriving DecidableEq, Repr

/-- The bytes an access of this width moves. -/
def Size.bytes : Size → Nat
  | .byte => 1
  | .word => 2
  | .long => 4

/-- The scale of a displacement (R124). -/
def Size.scale (z : Size) : Word := BitVec.ofNat 32 z.bytes

/-- What a load of this width leaves in a register: bytes and words are sign-extended, a long is
moved unchanged (40_data_transfer.md R151). -/
def Size.extend : Size → Word → Word
  | .byte, v => sext8 (lowByte v)
  | .word, v => sext16 (lowHalf v)
  | .long, v => v

/-- The alignment rule (20_memory.md R74), on the logical address. -/
def Size.aligned : Size → Word → Bool
  | .byte, _ => true
  | .word, a => a.extractLsb' 0 1 == 0#1
  | .long, a => a.extractLsb' 0 2 == 0#2

/-! ### Immediates (R123) -/

/-- The immediate of MOV, ADD and CMP/EQ. -/
def immSigned (imm : BitVec 8) : Word := sext8 imm

/-- The immediate of the logic forms and of TRAPA. -/
def immUnsigned (imm : BitVec 8) : Word := imm.setWidth 32

/-! ### Effective addresses (R124) -/

/-- `@(disp,Rn)` with a 4-bit displacement. -/
def eaDisp4 (z : Size) (base : Word) (d : BitVec 4) : Word := base + d.setWidth 32 * z.scale

/-- `@(disp,GBR)` with an 8-bit displacement. -/
def eaDisp8 (z : Size) (base : Word) (d : BitVec 8) : Word := base + d.setWidth 32 * z.scale

/-- `@(R0,Rn)` and `@(R0,GBR)`. -/
def eaIndexed (base index : Word) : Word := base + index

/-- `@-Rn`. -/
def eaPreDec (z : Size) (base : Word) : Word := base - z.scale

/-- Rm after `@Rm+`. -/
def postInc (z : Size) (base : Word) : Word := base + z.scale

/-- `@(disp,PC)` of MOV.W. -/
def eaPcWord (pc : Word) (d : BitVec 8) : Word := pc + d.setWidth 32 * 2

/-- `@(disp,PC)` of MOV.L and MOVA. -/
def eaPcLong (pc : Word) (d : BitVec 8) : Word := (pc &&& 0xFFFFFFFC) + d.setWidth 32 * 4

/-- The target of BT, BF, BT/S and BF/S. -/
def branchTarget8 (pc : Word) (d : BitVec 8) : Word := pc + d.signExtend 32 * 2

/-- The target of BRA and BSR. -/
def branchTarget12 (pc : Word) (d : BitVec 12) : Word := pc + d.signExtend 32 * 2

end Sys2Proof.Machine
end

