-- ==== Sys2Proof/Machine/Flags.lean ====
section
/-! DEFINITION. Every flag computation: carry, borrow and overflow as exact quantities
(41_arithmetic.md R201), the comparisons, the shifted-out bits, the divide step and the
multiply-accumulate saturation. -/

namespace Sys2Proof.Machine

/-! ### Carry, borrow, overflow (41_arithmetic.md R201) -/

/-- A flag as the number t of R201. -/
def flagNat (b : Bool) : Nat := if b then 1 else 0

/-- `carry(a, b, t) = (a + b + t >= 2^32)`, in unbounded integers. -/
def carry (a b : Word) (t : Bool) : Bool := decide (2 ^ 32 ≤ a.toNat + b.toNat + flagNat t)

/-- `borrow(a, b, t) = (a < b + t)`, in unbounded integers. -/
def borrow (a b : Word) (t : Bool) : Bool := decide (a.toNat < b.toNat + flagNat t)

/-- `add_overflow(a, b) = (a[31] == b[31]) and ((a + b)[31] != a[31])`. -/
def addOverflow (a b : Word) : Bool := (a.msb == b.msb) && ((a + b).msb != a.msb)

/-- `sub_overflow(a, b) = (a[31] != b[31]) and ((a - b)[31] != a[31])`. -/
def subOverflow (a b : Word) : Bool := (a.msb != b.msb) && ((a - b).msb != a.msb)

/-! ### Comparisons (41_arithmetic.md R208 to R216); `a` is Rn -/

/-- Unsigned `a >= b`. -/
def geUnsigned (a b : Word) : Bool := decide (b.toNat ≤ a.toNat)

/-- Unsigned `a > b`. -/
def gtUnsigned (a b : Word) : Bool := decide (b.toNat < a.toNat)

/-- Signed `a >= b`. -/
def geSigned (a b : Word) : Bool := decide (b.toInt ≤ a.toInt)

/-- Signed `a > b`. -/
def gtSigned (a b : Word) : Bool := decide (b.toInt < a.toInt)

/-- Some byte of `x` is 0 (R216, with `x = a ^ b`). -/
def anyByteZero (x : Word) : Bool :=
  x.extractLsb' 24 8 == 0#8 || x.extractLsb' 16 8 == 0#8 ||
    x.extractLsb' 8 8 == 0#8 || x.extractLsb' 0 8 == 0#8

/-! ### The divide step (41_arithmetic.md R217) -/

/-- What DIV1 leaves: the new Rn, Q and T. -/
structure DivStep where
  rn : Word
  q  : Bool
  t  : Bool
deriving DecidableEq, Repr

/-- One non-restoring step on the dividend register `rn`, where `divisor` gives Rm as read after the
shift: the shift takes T in at the bottom, and the 33-bit difference or sum gives the new register
and the bit `c`. -/
def divStep (rn : Word) (divisor : Word → Word) (t q m : Bool) : DivStep :=
  let q1 := rn.msb
  let shifted := (rn <<< 1) ||| zext1 t
  let d := divisor shifted
  let s : BitVec 33 :=
    if q = m then shifted.setWidth 33 - d.setWidth 33 else shifted.setWidth 33 + d.setWidth 33
  let c := s.msb
  let q' := (q1 ^^ c) ^^ m
  { rn := s.setWidth 32, q := q', t := q' == m }

/-! ### Multiplication (41_arithmetic.md R202, R227, R228) -/

/-- The exact signed product of two longs, 64 bits. -/
def mulSigned64 (a b : Word) : BitVec 64 := BitVec.ofInt 64 (a.toInt * b.toInt)

/-- The exact unsigned product of two longs, 64 bits. -/
def mulUnsigned64 (a b : Word) : BitVec 64 := BitVec.ofNat 64 (a.toNat * b.toNat)

/-- The signed product of two 16-bit values, exact in 32 bits. -/
def mulSigned16 (a b : Half) : Word := BitVec.ofInt 32 (a.toInt * b.toInt)

/-- The unsigned product of two 16-bit values, exact in 32 bits. -/
def mulUnsigned16 (a b : Half) : Word := BitVec.ofNat 32 (a.toNat * b.toNat)

/-- The sum of MAC.L under S: modulo 2^64 when S is 0, then clamped to the signed 48-bit range when
S is 1 (R227). -/
def macLSum (s : Bool) (acc : BitVec 64) (x y : Word) : BitVec 64 :=
  let sum := acc + mulSigned64 x y
  if s then
    if sum.toInt > 2 ^ 47 - 1 then 0x00007FFFFFFFFFFF#64
    else if sum.toInt < -(2 ^ 47) then 0xFFFF800000000000#64
    else sum
  else sum

/-- The sum of MAC.W under S = 0: modulo 2^64 (R228). -/
def macWSum (acc : BitVec 64) (x y : Half) : BitVec 64 := acc + BitVec.ofInt 64 (x.toInt * y.toInt)

/-- What MAC.W under S = 1 leaves in MACL, and whether it saturated (R228). -/
def macWSaturate (macl : Word) (x y : Half) : Word × Bool :=
  let r := macl.toInt + x.toInt * y.toInt
  if r > 2 ^ 31 - 1 then (0x7FFFFFFF, true)
  else if r < -(2 ^ 31) then (0x80000000, true)
  else (BitVec.ofInt 32 r, false)

end Sys2Proof.Machine
end

