-- ==== Sys2Proof/Config.lean ====
section
/-! DEFINITION. What the specification leaves to an implementation (00_scope.md R9), as ONE record
of plain data that `State` carries, so that a statement about every state holds for every value of
every parameter; and the free byte, which has no body. The other free value, what a host handler does,
is `Config.hookReply` beside the state it is applied to. -/

namespace Sys2Proof

/-- `MISALIGNED_POLICY`: what a misaligned CPU data access does (20_memory.md R75). -/
inductive MisalignedPolicy where
  | fault
  | addressError
deriving DecidableEq, Repr

/-- `IRQ_SLOT_POLICY`: how a new request meets the held one (60_exceptions.md R357). -/
inductive IrqSlotPolicy where
  | overwrite
  | keepHigher
deriving DecidableEq, Repr

/-- `SLEEP_POLICY`: what SLEEP does (45_system.md R329). -/
inductive SleepPolicy where
  | halt
  | spin
deriving DecidableEq, Repr

/-- `MACH_BITS`: how many bits of MACH are kept (10_state.md R34). -/
inductive MachBits where
  | bits32
  | bits10
deriving DecidableEq, Repr

/-- The interrupt sources of the environment, from which `ENV_IRQ` is chosen (60_exceptions.md R368,
R460). -/
inductive EnvIrq where
  | irq (k : Fin 8)
  | nmi
deriving DecidableEq, Repr

/-- The DMA request lines (60_exceptions.md R418, R419). -/
inductive DreqLine where
  | sci0Rx
  | sci0Tx
  | sci1Rx
  | sci1Tx
  | auto
  | none
deriving DecidableEq, Repr

/-- The two serial ports (60_exceptions.md R430). -/
inductive Port where
  | sci0
  | sci1
deriving DecidableEq, Repr

/-- The buffers of the memory map, served from the page table (20_memory.md R86). -/
inductive BufferKind where
  | bios
  | dram
  | cartSram
  | cartRom
  | onchipRam
  | vram
deriving DecidableEq, Repr

/-- The device regions outside this block (20_memory.md R85, R90). The on-chip peripheral block is
not among them: its place is `Params.onchipBase`. -/
inductive DeviceKind where
  | vdp
  | consoleIo
  | sound
  | cartExpansion
deriving DecidableEq, Repr

/-- A host buffer that the memory map points into (20_memory.md R80, R86). The bytes of all buffers live
in one storage: this one's first byte is the first of the storage page `page` (log entry 10). `size` is
its length before padding, and `fill` what its bytes read as where the host has loaded none
(log entry 3). -/
structure Buffer where
  page : Nat
  size : Nat
  fill : BitVec 8
deriving DecidableEq, Repr

/-- What lies in a region of the memory map: `buffer` is the fast path, `device` the slow path
(20_memory.md R86). Whether a buffer region is writable follows from its kind (R80). -/
inductive RegionKind where
  | buffer (kind : BufferKind) (contents : Buffer)
  | device (kind : DeviceKind)
deriving DecidableEq, Repr

/-- The cycles of an access by kind of region, `VDP_WAIT` apart (20_memory.md R88). -/
def RegionKind.cost : RegionKind → Nat
  | .buffer .bios _ => 1
  | .buffer .dram _ => 1
  | .buffer .onchipRam _ => 1
  | .buffer .cartSram _ => 3
  | .buffer .cartRom _ => 3
  | .buffer .vram _ => 2
  | .device _ => 2

/-- One region of `MEMORY_MAP`, at translated addresses (20_memory.md R86). `cost` is the region's own;
R88's table gives it as `kind.cost`. -/
structure Region where
  kind : RegionKind
  base : Nat
  size : Nat
  cost : Nat := kind.cost
deriving DecidableEq, Repr

/-- A timer domain besides the CPU's (60_exceptions.md R400): its tick counter moves on once in
`cyclesPerTick` CPU cycles (log entry 28). -/
structure ClockDomain where
  cyclesPerTick : Nat
deriving DecidableEq, Repr

/-- The parameters of 00_scope.md R9. `nointSet` and `execLatency` name an instruction form by the
`match` word of its row of the opcode table. `HOOKS` is part of the launch and of the state.
`RESET_UNSPECIFIED` is fixed to `draw`, and the values drawn are part of the launch (log entry 2). -/
structure Params where
  sh2Extensions      : Bool
  misalignedPolicy   : MisalignedPolicy
  machBits           : MachBits
  macwSatFlag        : Bool
  nmiVector          : BitVec 8
  irqVectors         : Vector (BitVec 8) 8
  addressErrorVector : BitVec 8
  irqSlotPolicy      : IrqSlotPolicy
  nointSet           : List Half
  sleepPolicy        : SleepPolicy
  memoryMap          : List Region
  onchipBase         : Nat
  dmaRsMap           : List (BitVec 4 × DreqLine)
  execLatency        : List (Half × Nat)
  envIrq             : List EnvIrq
  clockDomains       : List ClockDomain
  vdpWait            : Nat
  sliceMax           : Nat
deriving DecidableEq, Repr

/-- The defaults of 00_scope.md R9. The memory map is open there (20_memory.md R86 (d)): the
regions named here are those of 95_test_vectors.md 0.1 (log entry 5), and `vdpWait` is open too
(log entry 6). -/
def Params.default : Params where
  sh2Extensions      := true
  misalignedPolicy   := .fault
  machBits           := .bits32
  macwSatFlag        := true
  nmiVector          := 11
  irqVectors         := #v[64, 65, 66, 67, 68, 69, 70, 71]
  addressErrorVector := 9
  irqSlotPolicy      := .overwrite
  nointSet           := [0x400E, 0x401E, 0x402E, 0x4007, 0x4017, 0x4027]
  sleepPolicy        := .halt
  memoryMap          :=
    [ { kind := .buffer .bios { page := 0x0, size := 0x1000, fill := 0xFF }
        base := 0x00000000, size := 0x1000 },
      { kind := .buffer .dram { page := 0x1000, size := 0x10000, fill := 0x00 }
        base := 0x01000000, size := 0x10000 } ]
  onchipBase         := 0x05FFFE00
  dmaRsMap           :=
    [ (0b0100, .sci0Rx), (0b0101, .sci0Tx), (0b0110, .sci1Rx), (0b0111, .sci1Tx),
      (0b1100, .auto) ]
  execLatency        := []
  envIrq             := [.irq 0, .irq 1, .nmi]
  clockDomains       := []
  vdpWait            := 0
  sliceMax           := 1024

namespace Config

/-- FREE VALUE: the bytes that reads of an unassigned on-chip byte or of a device region outside
this block return (60_exceptions.md R452, R461: a draw that may differ between reads). Applied to
the draw counter of the state, which every draw advances (log entry 7). -/
opaque freeByte : Nat → Byte

end Config

end Sys2Proof
end

