-- ==== Sys2Proof/Machine/Memory.lean ====
section
/-! DEFINITION. The storage behind the bus: address translation (20_memory.md R71), the bytes of the
buffers as one list in canonical form, the page table (R80 to R82), and big-endian assembly of a
value from bytes (R77). Everything here is a function of plain data; the machine's state holds the
data and the bus (Machine/Bus.lean) uses these functions. -/

namespace Sys2Proof.Machine

/-! ### Address translation -/

/-- `translate` (20_memory.md R71): bits 31:28 are dropped in the on-chip region, whose bits 27:24
are 0xF, and bits 31:27 everywhere else. -/
def translate (a : Word) : Word :=
  if a.extractLsb' 24 4 = 0xF#4 then a &&& 0x0FFFFFFF else a &&& 0x07FFFFFF

/-! ### The bytes of the buffers -/

/-- The bytes of all buffers, keyed by their places in the buffers' storage. Canonical form: places
strictly rising, and no entry equal to what an unlisted place reads as. -/
abbrev Memory := List Host.Cell

/-- The byte at the place `a`; an unlisted one reads as `unlisted`. -/
def Memory.read (unlisted : Byte) (a : Nat) : Memory → Byte
  | [] => unlisted
  | (k, b) :: m => if k = a then b else if a < k then unlisted else Memory.read unlisted a m

/-- Store `b` at the place `a`, keeping the canonical form: storing what an unlisted place reads as
removes the entry. -/
def Memory.write (unlisted : Byte) (a : Nat) (b : Byte) : Memory → Memory
  | [] => if b = unlisted then [] else [(a, b)]
  | (k, c) :: m =>
    if k < a then (k, c) :: Memory.write unlisted a b m
    else if k = a then (if b = unlisted then m else (a, b) :: m)
    else (if b = unlisted then (k, c) :: m else (a, b) :: (k, c) :: m)

/-- All places of the list are at or above `lo` and strictly rising, and no entry is redundant. -/
def Memory.wfFrom (unlisted : Nat → Byte) : Nat → Memory → Bool
  | _, [] => true
  | lo, (k, b) :: m => decide (lo ≤ k) && decide (b ≠ unlisted k) && Memory.wfFrom unlisted (k + 1) m

/-- The canonical form of a memory whose unlisted places read as `unlisted`. -/
def Memory.wf (unlisted : Nat → Byte) (m : Memory) : Bool := Memory.wfFrom unlisted 0 m

/-! ### The page table -/

/-- The size of a page, 4 KiB (00_scope.md R8). -/
def pageSize : Nat := 4096

/-- The pages that a number of bytes fills, the last one padded (20_memory.md R82). -/
def pagesOf (size : Nat) : Nat := (size + (pageSize - 1)) / pageSize

/-- One entry of the page table that is not `none` (20_memory.md R80): the translated page number, the
buffer the entry points into, the page of the buffer that is its base offset, and, from the region it
was built for, the kind, which decides whether a write may land, and the cost. -/
structure PageEntry where
  page   : Nat
  buffer : Buffer
  index  : Nat
  kind   : BufferKind
  cost   : Nat
deriving DecidableEq, Repr

/-- `writable` of an entry: false for the BIOS and cartridge ROM pages and true for RAM, SRAM and VRAM
pages (20_memory.md R80). -/
def PageEntry.writable (e : PageEntry) : Bool :=
  match e.kind with
  | .bios => false
  | .cartRom => false
  | .dram => true
  | .cartSram => true
  | .onchipRam => true
  | .vram => true

/-- `base` of an entry in the buffers' storage: where its buffer starts, and the offset of its page
(20_memory.md R80, R83). -/
def PageEntry.base (e : PageEntry) : Nat := pageSize * (e.buffer.page + e.index)

/-- The place of `buf[base + t[11:0]]` in the buffers' storage (20_memory.md R83). -/
def PageEntry.place (e : PageEntry) (t : Nat) : Nat := e.base + t % pageSize

/-- The page table: a page that is not listed has the entry `none`. -/
abbrev PageTable := List PageEntry

/-- The entry of the page that holds the translated address `t` (20_memory.md R80). -/
def PageTable.lookup (pt : PageTable) (t : Nat) : Option PageEntry :=
  pt.find? (fun e => e.page == t / pageSize)

/-- The place lies in the buffer or in its padding. -/
def bufferHolds (b : Buffer) (k : Nat) : Bool :=
  decide (b.page ≤ k / pageSize) && decide (k / pageSize < b.page + pagesOf b.size)

/-- What an unlisted place of a buffer reads as: its own fill (log entry 3), and 0xFF in its padding
(20_memory.md R82). -/
def bufferUnlisted (b : Buffer) (k : Nat) : Byte :=
  if k < pageSize * b.page + b.size then b.fill else 0xFF

/-- What an unlisted place reads as under a page table. -/
def PageTable.unlisted (pt : PageTable) (k : Nat) : Byte :=
  match pt.find? (fun e => bufferHolds e.buffer k) with
  | some e => bufferUnlisted e.buffer k
  | none => 0x00

/-- The entries of the pages of one region: as many as the region and its buffer, both padded to whole
pages, have (20_memory.md R82, log entry 27). A device region has none. -/
def regionPages (r : Region) : PageTable :=
  match r.kind with
  | .device _ => []
  | .buffer kind b =>
    (List.range (min (pagesOf r.size) (pagesOf b.size))).map fun i =>
      { page := r.base / pageSize + i, buffer := b, index := i, kind := kind, cost := r.cost }

/-- The page table "built once at initialization from the loaded ROM/SRAM/BIOS/VRAM buffers"
(20_memory.md R81). -/
def buildPageTable (map : List Region) : PageTable := map.flatMap regionPages

/-! ### Values of several bytes -/

/-- The value of bytes, most significant first, zero-extended to 32 bits (20_memory.md R77,
00_scope.md R13). -/
def joinBytes (bs : List Byte) : Word :=
  bs.foldl (fun acc b => (acc <<< 8) ||| b.setWidth 32) 0

/-- The `n` bytes of the low `8n` bits of `v`, most significant first (20_memory.md R77). -/
def splitBytes : Nat → Word → List Byte
  | 0, _ => []
  | n + 1, v => (v >>> (8 * n)).setWidth 8 :: splitBytes n v

/-- The `n` bytes of the buffers from the place `t` up. -/
def Memory.readBytes (pt : PageTable) (m : Memory) (t n : Nat) : List Byte :=
  (List.range n).map fun i => m.read (pt.unlisted (t + i)) (t + i)

/-- Store bytes from the place `t` up. -/
def Memory.writeBytes (pt : PageTable) : Memory → Nat → List Byte → Memory
  | m, _, [] => m
  | m, t, b :: bs => Memory.writeBytes pt (m.write (pt.unlisted t) t b) (t + 1) bs

/-- The storage that the host has loaded with these bytes, the later of two at one place
(20_memory.md R81). -/
def Memory.load (pt : PageTable) (image : List Host.Cell) : Memory :=
  image.foldl (fun m c => m.write (pt.unlisted c.1) c.1 c.2) []

end Sys2Proof.Machine
end

