-- ==== Sys2Proof/Machine/State.lean ====
section
/-! DEFINITION. The machine's state as plain data, holding everything the specification gives the
CORE block (10_state.md, 60_exceptions.md part B, 70_reset_and_hazards.md), the reasons a step can
stop, and the state after power-on reset. -/

namespace Sys2Proof.Machine

/-! ### Parts of the state -/

/-- The status register by field (10_state.md R35). Its reserved bits read 0 and have no storage. -/
structure StatusReg where
  t : Bool
  s : Bool
  i : BitVec 4
  q : Bool
  m : Bool
deriving DecidableEq, Repr

/-- The one-deep pipeline (10_state.md R42). -/
structure Pipeline where
  instruction : Half
  src         : Word
  valid       : Bool
deriving DecidableEq, Repr

/-- An exception request `(vector_id, priority)` (10_state.md R44). -/
structure IrqRequest where
  vector   : BitVec 8
  priority : Nat
deriving DecidableEq, Repr

/-- One DMA channel (60_exceptions.md R410): the stored count is 17 bits wide (90_conflicts.md C8),
and `active` is the re-entry guard of R422. -/
structure DmaChannel where
  sar    : Word
  dar    : Word
  count  : BitVec 17
  chcr   : Half
  active : Bool
deriving DecidableEq, Repr

/-- The levels of the request lines that have one; AUTO is always asserted and NONE never is
(60_exceptions.md R419). -/
structure LineLevels where
  sci0Rx : Bool
  sci0Tx : Bool
  sci1Rx : Bool
  sci1Tx : Bool
deriving DecidableEq, Repr

/-- One serial port (60_exceptions.md R430 to R437). SSR is held by field: its TDRE bit reads as
`txEmpty` (R435). RDR is hard-wired to 0x00 (R436) and has no storage. -/
structure SciPort where
  smr      : Byte
  brr      : Byte
  scr      : Byte
  tdr      : Byte
  txEmpty  : Bool
  rdrf     : Bool
  orer     : Bool
  fer      : Bool
  per      : Bool
  tend     : Bool
  mpb      : Bool
  mpbt     : Bool
  shiftReg : Byte
  prepared : Byte
  bitsLeft : Nat
  busy     : Bool
deriving DecidableEq, Repr

/-- The interrupt controller's registers (60_exceptions.md R370). -/
structure Intc where
  ipra : Half
  iprb : Half
  iprc : Half
  iprd : Half
  ipre : Half
  icr  : Half
deriving DecidableEq, Repr

/-- A queued event: the bit clock of a port, due at `target` of the tick counter of a timer domain
(60_exceptions.md R401, R407). Domain 0 is the CPU's, domain k + 1 the k-th of `CLOCK_DOMAINS` (R400).
The queue is held in insertion order, so an event's place is its insertion sequence number. -/
structure Event where
  domain : Nat
  target : Int
  port   : Port
deriving DecidableEq, Repr

/-- An entry of the serial output log (60_exceptions.md R442). -/
structure LogEntry where
  port  : Port
  byte  : Byte
  cycle : Nat
deriving DecidableEq, Repr

/-- A write to a device region outside this block, an opaque event whose bytes go to the host
(20_memory.md R90, 70_reset_and_hazards.md R511). -/
structure EnvWrite where
  address : Word
  bytes   : List Byte
deriving DecidableEq, Repr

/-- An entry of the hook map `HOOKS` (60_exceptions.md R462): the instruction address, and the name of
the host handler installed there. -/
structure Hook where
  address : Word
  handler : Nat
deriving DecidableEq, Repr

/-- `add_hook`: a second hook at an address replaces the first (60_exceptions.md R462). -/
def addHook (h : Hook) (hooks : List Hook) : List Hook :=
  h :: hooks.filter fun g => g.address != h.address

/-- `remove_hook` (60_exceptions.md R462). -/
def removeHook (a : Word) (hooks : List Hook) : List Hook := hooks.filter fun g => g.address != a

/-- The hook at an address. -/
def hookAt (a : Word) (hooks : List Hook) : Option Hook := hooks.find? fun g => g.address == a

/-- A move of the environment between two cycles (70_reset_and_hazards.md R500, R511). -/
inductive EnvAction where
  | raise (source : EnvIrq)
  | addHook (hook : Hook)
  | removeHook (address : Word)
deriving DecidableEq, Repr

/-- Everything outside the CPU: parameters, bus, scheduler, DMA controller, serial ports, interrupt
controller registers and the environment's interface. -/
structure Platform where
  params    : Params
  pageTable : PageTable
  mem       : Memory
  now       : Nat
  events    : List Event
  dma       : Vector DmaChannel 4
  dmaor     : Half
  lines     : LineLevels
  sci0      : SciPort
  sci1      : SciPort
  intc      : Intc
  outLog    : List LogEntry
  hooks     : List Hook
  env       : List (Nat × EnvAction)
  envWrites : List EnvWrite
  draws     : Nat
deriving DecidableEq, Repr

/-! ### Why the CPU stops -/

/-- The settings the document calls not yet implemented (60_exceptions.md R365). -/
inductive Unimplemented where
  /-- CHCR.IE = 1 (R415). -/
  | dmaInterrupt
  /-- A DMA step code 0b11 (R415, R416). -/
  | dmaStep
  /-- SMR.C/A = 1 (R431). -/
  | syncSerial
deriving DecidableEq, Repr

/-- The interrupt controller's registers (60_exceptions.md R370). -/
inductive IntcReg where
  | ipra
  | iprb
  | iprc
  | iprd
  | ipre
  | icr
deriving DecidableEq, Repr

/-- The assigned registers of the on-chip block (60_exceptions.md R450). -/
inductive OnchipReg where
  | smr (port : Port)
  | brr (port : Port)
  | scr (port : Port)
  | tdr (port : Port)
  | ssr (port : Port)
  | rdr (port : Port)
  | sar (c : Fin 4)
  | dar (c : Fin 4)
  | tcr (c : Fin 4)
  | chcr (c : Fin 4)
  | dmaor
  | intc (r : IntcReg)
deriving DecidableEq, Repr

/-- The closed set of reasons of 00_scope.md R14, with what R365 of 60_exceptions.md has them record.
`UnwrittenRead` is absent: every register holds a value at reset (log entry 2). -/
inductive FaultReason where
  /-- Executing a word that matches no row (30_encoding.md R131), or one of the SH-2-only forms when
  `SH2_EXTENSIONS` is false (R129). Raised by the execute stage. Safe: the machine stops. -/
  | illegalInstruction (word : Half)
  /-- A PC-changing form in a delay slot (30_encoding.md R133). Raised by the meanings of BF, BF/S,
  BT, BT/S, BRA, BRAF, BSR, BSRF, JMP, JSR, RTS, RTE and TRAPA. Safe: the machine stops. -/
  | slotIllegal (word : Half)
  /-- A misaligned data access under `MISALIGNED_POLICY = fault`, and any misaligned fetch,
  exception-entry access or DMA access (20_memory.md R75, R76). Safe: the machine stops. -/
  | misaligned (address : Word) (width : Nat)
  /-- A write to a BIOS or ROM page (20_memory.md R84). Safe: the machine stops. -/
  | romWrite (address : Word)
  /-- A device setting that is not implemented (60_exceptions.md R415, R416, R431), with the register
  and the value written. Safe: the machine stops. -/
  | unimplemented (what : Unimplemented) (register : OnchipReg) (value : Half)
deriving DecidableEq, Repr

/-- A fault record `(reason, at)` (60_exceptions.md R365). -/
structure FaultRecord where
  reason : FaultReason
  at_    : Word
deriving DecidableEq, Repr

/-! ### The state -/

/-- The state of the machine. `curAddr` and `curWord` are the values `xa` and `x` of
60_exceptions.md R350 for the instruction that executes last; only fault records read them. -/
structure State where
  regs                : Vector Word 16
  pc                  : Word
  pr                  : Word
  gbr                 : Word
  vbr                 : Word
  mach                : Word
  macl                : Word
  sr                  : StatusReg
  pipe                : Pipeline
  inDelaySlot         : Bool
  inNoIntSlot         : Bool
  pending             : Option IrqRequest
  pendingAddressError : Bool
  sleeping            : Bool
  fault               : Option FaultRecord
  fetchWait           : Nat
  execWait            : Nat
  curAddr             : Word
  curWord             : Half
  plat                : Platform
deriving DecidableEq, Repr

/-- Why a step stops the machine. -/
inductive Fault where
  /-- The CPU ends in the recorded fault (60_exceptions.md R354). Raised by every stage of a step
  and by a DMA transfer; the reason's own docstring says by whom. Safe: the machine stops where the
  specification's CPU stops. `after` is the state in which it stopped: its `fault` field is set, no
  register is changed by the faulting instruction or entry, and the bus writes already performed
  stay performed. A step from `after` only lets time pass (R409). -/
  | raised (record : FaultRecord) (after : State)
  /-- A stuck state, no fault of the CPU: a DMA transfer of this cycle has moved `dmaUnitBound` units
  without ending, so the loop of 60_exceptions.md R423 is taken never to return. Raised by a bus write
  or a firing pass that starts such a transfer. Safe: the machine stops, and no state follows
  (log entry 14). -/
  | endless
deriving DecidableEq, Repr

/-- Why an instruction has no meaning in the model. -/
inductive Refusal where
  /-- The instruction has no meaning yet. Raised by no arm of `exec`: every instruction is
  modelled. Safe: the machine stops. -/
  | notModelled (mnemonic : String)
deriving DecidableEq, Repr

/-! ### How the parts of a step answer -/

/-- A bus or device operation ends, or raises a fault, either way with the platform it leaves; or it
never ends. -/
inductive Io where
  | ok (p : Platform)
  | raise (r : FaultReason) (p : Platform)
  | hang
deriving DecidableEq, Repr

/-- A part of an instruction or of an exception entry ends with a value, is abandoned by a
misaligned access under `MISALIGNED_POLICY = address_error` (60_exceptions.md R362), raises a fault, or
never ends. -/
inductive Run (α : Type) where
  | ok (a : α) (s : State)
  | addressError (s : State)
  | raise (r : FaultRecord) (s : State)
  | hang
deriving Repr

/-! ### Host hooks -/

/-- One move of a hook's handler (60_exceptions.md R462: "The handler may read and change any CPU and
memory state"): a handler's effect is a list of these moves. `poke` stores a byte at a logical address
of a buffer. The slot flags and the wait counters have no move (log entry 8). -/
inductive HostAction where
  | setReg (n : Reg) (v : Word)
  | setPc (v : Word)
  | setPr (v : Word)
  | setGbr (v : Word)
  | setVbr (v : Word)
  | setMach (v : Word)
  | setMacl (v : Word)
  | setSr (v : Word)
  | setPipeline (entry : Pipeline)
  | setPending (request : Option IrqRequest)
  | setPendingAddressError (b : Bool)
  | setSleeping (b : Bool)
  | setFault (record : FaultRecord)
  | poke (address : Word) (b : Byte)
deriving DecidableEq, Repr, Inhabited

/-- What a hook handler answers: its effect, and whether the real instruction is suppressed. -/
structure HookReply where
  actions  : List HostAction
  suppress : Bool
deriving DecidableEq, Repr, Inhabited

end Sys2Proof.Machine

/-- FREE VALUE: what a host handler does when it is called for an address in a state, all of which it
may read (60_exceptions.md R462). The state's draw counter moves on with every call, so two calls never
meet the same state (log entry 8). -/
opaque Sys2Proof.Config.hookReply :
  Nat → Sys2Proof.Word → Sys2Proof.Machine.State → Sys2Proof.Machine.HookReply

namespace Sys2Proof.Machine

/-! ### Launch and power-on reset -/

/-- The reset values of a DMA channel that are drawn (60_exceptions.md R411). -/
structure ChannelDraws where
  sar : Word
  dar : Word
  tcr : Half
deriving DecidableEq, Repr

/-- What power-on reset draws under `RESET_UNSPECIFIED = draw` (10_state.md R49,
70_reset_and_hazards.md R481). -/
structure ResetDraws where
  low  : Vector Word 15
  pr   : Word
  gbr  : Word
  mach : Word
  macl : Word
  t    : Bool
  s    : Bool
  q    : Bool
  m    : Bool
  dma  : Vector ChannelDraws 4
deriving DecidableEq, Repr

/-- All draws 0, so that TCR is 0x10000: the model's own choice for `State.reset`
(log entries 2 and 4). -/
def ResetDraws.zero : ResetDraws :=
  { low := Vector.replicate 15 0, pr := 0, gbr := 0, mach := 0, macl := 0
    t := false, s := false, q := false, m := false
    dma := Vector.replicate 4 { sar := 0, dar := 0, tcr := 0 } }

/-- A launch (70_reset_and_hazards.md R510, R511): the parameters with the memory map, the loaded bytes by
their places in the buffers' storage, the draws of reset, the hooks installed before it in their order,
the environment's schedule, and the end address `END_PC`. -/
structure Launch where
  params : Params
  image  : List Host.Cell
  drawn  : ResetDraws
  hooks  : List Hook
  env    : List (Nat × EnvAction)
  endPc  : Word
deriving DecidableEq, Repr

/-- The count that a TCR value stands for: 0 means 0x10000 (60_exceptions.md R413). -/
def tcrCount (v : Half) : BitVec 17 := if v = 0 then 0x10000 else v.setWidth 17

/-- The bits of a value that MACH keeps (10_state.md R34). -/
def keptMach : MachBits → Word → Word
  | .bits32, v => v
  | .bits10, v => (v.extractLsb' 0 10).setWidth 32

/-- A channel after reset (60_exceptions.md R411). -/
def DmaChannel.reset (d : ChannelDraws) : DmaChannel :=
  { sar := d.sar, dar := d.dar, count := tcrCount d.tcr, chcr := 0, active := false }

/-- A serial port after reset (60_exceptions.md R430, R437). -/
def SciPort.reset : SciPort :=
  { smr := 0x00, brr := 0xFF, scr := 0x00, tdr := 0xFF
    txEmpty := true, rdrf := false, orer := false, fer := false, per := false
    tend := true, mpb := false, mpbt := false
    shiftReg := 0, prepared := 0, bitsLeft := 0, busy := false }

/-- The platform after the reset of a launch (60_exceptions.md R453, 70_reset_and_hazards.md R480,
R481). -/
def Platform.powerOn (l : Launch) : Platform :=
  let pt := buildPageTable l.params.memoryMap
  { params := l.params
    pageTable := pt
    mem := Memory.load pt l.image
    now := 0
    events := []
    dma := #v[.reset l.drawn.dma[0], .reset l.drawn.dma[1], .reset l.drawn.dma[2], .reset l.drawn.dma[3]]
    dmaor := 0
    lines := { sci0Rx := false, sci0Tx := false, sci1Rx := false, sci1Tx := false }
    sci0 := .reset, sci1 := .reset
    intc := { ipra := 0, iprb := 0, iprc := 0, iprd := 0, ipre := 0, icr := 0 }
    outLog := []
    hooks := l.hooks.foldl (fun hooks h => addHook h hooks) []
    env := l.env
    envWrites := []
    draws := 0 }

/-- The long word at an address of page 0, read at reset (70_reset_and_hazards.md R480). 20_memory.md
R86 (a) puts the BIOS buffer there; where a map has none, the read is the unmapped one (R87). -/
def Platform.resetVector (p : Platform) (t : Nat) : Word :=
  match p.pageTable.lookup t with
  | some e => joinBytes (p.mem.readBytes p.pageTable (e.place t) 4)
  | none => 0

/-- Power-on reset of a launch (70_reset_and_hazards.md R480, R481). -/
def State.powerOn (l : Launch) : State :=
  let p := Platform.powerOn l
  let d := l.drawn
  { regs := d.low.push (p.resetVector 4)
    pc := p.resetVector 0
    pr := d.pr, gbr := d.gbr, vbr := 0, mach := keptMach l.params.machBits d.mach, macl := d.macl
    sr := { t := d.t, s := d.s, i := 0xF, q := d.q, m := d.m }
    pipe := { instruction := 0, src := 0, valid := false }
    inDelaySlot := false, inNoIntSlot := false
    pending := none, pendingAddressError := false
    sleeping := false
    fault := none
    fetchWait := 0, execWait := 0
    curAddr := 0, curWord := 0
    plat := p }

/-- The launch of a machine into which the host has loaded nothing, with the default parameters
(log entry 1). -/
def Launch.empty : Launch :=
  { params := Params.default, image := [], drawn := ResetDraws.zero, hooks := [], env := [], endPc := 0 }

/-- The machine right after reset with nothing loaded: PC and R15 are the padding 0xFFFFFFFF that an
unloaded BIOS reads as (log entries 1 and 3). -/
def State.reset : State := State.powerOn Launch.empty

end Sys2Proof.Machine
end

