-- ==== Sys2Proof/Machine/Serial.lean ====
section
/-! DEFINITION. The request lines and the two serial ports (60_exceptions.md R419, R421, R430 to
R445). Every operation that changes a request line takes `check`, the re-evaluation of all DMA
channels (`check_activations`, R422), which Machine/Dma.lean supplies. -/

namespace Sys2Proof.Machine

/-- Sequencing of bus and device operations: a raised fault abandons what follows, and nothing follows
what never ends. -/
def Io.bind (r : Io) (k : Platform → Io) : Io :=
  match r with
  | .ok p => k p
  | .raise f p => .raise f p
  | .hang => .hang

/-! ### Request lines -/

/-- The level of a request line (R419). -/
def Platform.asserted (p : Platform) : DreqLine → Bool
  | .auto => true
  | .none => false
  | .sci0Rx => p.lines.sci0Rx
  | .sci0Tx => p.lines.sci0Tx
  | .sci1Rx => p.lines.sci1Rx
  | .sci1Tx => p.lines.sci1Tx

/-- Set the level of a line; AUTO and NONE have none to set. -/
def Platform.setLine (p : Platform) (b : Bool) : DreqLine → Platform
  | .auto => p
  | .none => p
  | .sci0Rx => { p with lines := { p.lines with sci0Rx := b } }
  | .sci0Tx => { p with lines := { p.lines with sci0Tx := b } }
  | .sci1Rx => { p with lines := { p.lines with sci1Rx := b } }
  | .sci1Tx => { p with lines := { p.lines with sci1Tx := b } }

/-- `send_dreq(line)` (R421). -/
def sendDreq (check : Platform → Io) (line : DreqLine) (p : Platform) : Io :=
  check (p.setLine true line)

/-- `clear_dreq(line)` (R421). -/
def clearDreq (check : Platform → Io) (line : DreqLine) (p : Platform) : Io :=
  check (p.setLine false line)

/-! ### The ports -/

/-- The state of a port. -/
def Platform.sci (p : Platform) : Port → SciPort
  | .sci0 => p.sci0
  | .sci1 => p.sci1

/-- Replace the state of a port. -/
def Platform.setSci (p : Platform) (c : SciPort) : Port → Platform
  | .sci0 => { p with sci0 := c }
  | .sci1 => { p with sci1 := c }

/-- The transmit request line of a port, `SCIk_TX`. -/
def txLine : Port → DreqLine
  | .sci0 => .sci0Tx
  | .sci1 => .sci1Tx

/-- SCR.TE, bit 5: transmit enable (R433). -/
def SciPort.te (c : SciPort) : Bool := c.scr.getLsbD 5

/-- SMR.CKS, bits 1:0: the clock factor (R431). -/
def SciPort.cks (c : SciPort) : BitVec 2 := c.smr.extractLsb' 0 2

/-- `cycles_per_bit() = (32 << (2 * SMR.CKS)) * (BRR + 1)` (R441). -/
def SciPort.cyclesPerBit (c : SciPort) : Nat :=
  (32 * 2 ^ (2 * c.cks.toNat)) * (c.brr.toNat + 1)

/-- The bits of a byte, bit 7 first. -/
def byteOfBits (b7 b6 b5 b4 b3 b2 b1 b0 : Bool) : Byte :=
  BitVec.ofBool b7 ++ BitVec.ofBool b6 ++ BitVec.ofBool b5 ++ BitVec.ofBool b4 ++
    BitVec.ofBool b3 ++ BitVec.ofBool b2 ++ BitVec.ofBool b1 ++ BitVec.ofBool b0

/-- SSR as read: TDRE, RDRF, ORER, FER, PER, TEND, MPB, MPBT from bit 7 down, where TDRE reads as
`tx_empty` (R435). -/
def SciPort.ssr (c : SciPort) : Byte :=
  byteOfBits c.txEmpty c.rdrf c.orer c.fer c.per c.tend c.mpb c.mpbt

/-- `update_tx_line()` (R444): the line follows `SCR.TE and tx_empty`. -/
def updateTxLine (check : Platform → Io) (port : Port) (p : Platform) : Io :=
  let want := (p.sci port).te && (p.sci port).txEmpty
  let level := p.asserted (txLine port)
  if want && !level then sendDreq check (txLine port) p
  else if !want && level then clearDreq check (txLine port) p
  else .ok p

/-- The tick counter of a timer domain (R400): `now` for the CPU's, and one tick in `cyclesPerTick`
CPU cycles for another (log entry 28). -/
def Platform.tick (p : Platform) : Nat → Option Int
  | 0 => some p.now
  | k + 1 => p.params.clockDomains[k]?.map fun d => (p.now / d.cyclesPerTick : Nat)

/-- `add_event(bit_clock, delay, port, domain)` (R402): the event is due `delay` ticks of the domain from
now. No event enters a domain that does not exist. -/
def addEvent (domain : Nat) (delay : Int) (port : Port) (p : Platform) : Platform :=
  match p.tick domain with
  | some now =>
    { p with events := p.events ++ [{ domain := domain, target := now + delay, port := port }] }
  | none => p

/-- The CPU's timer domain (R400). -/
def cpuDomain : Nat := 0

/-- The port once `start()` has loaded its shifter (R438). -/
def SciPort.started (c : SciPort) : SciPort :=
  { c with shiftReg := c.tdr, txEmpty := true, bitsLeft := 8, tend := false, busy := true }

/-- `start()` (R438). -/
def sciStart (check : Platform → Io) (port : Port) (p : Platform) : Io :=
  let c := p.sci port
  updateTxLine check port (addEvent cpuDomain c.cyclesPerBit port (p.setSci c.started port))

/-- `byte_complete(port)` (R440): the callback appends to the output log; then the queued byte
starts, or the transmission ends. -/
def byteComplete (check : Platform → Io) (port : Port) (p : Platform) : Io :=
  let c := p.sci port
  let entry : LogEntry := { port := port, byte := c.prepared, cycle := p.now }
  let p : Platform := { p with outLog := p.outLog ++ [entry] }
  let idle : SciPort := { c with busy := false }
  if !idle.txEmpty && idle.te then sciStart check port (p.setSci idle port)
  else .ok (p.setSci { idle with tend := true } port)

/-- The port after one bit has moved from the shift register, bit 0 first, into the top of the output
register (R439). -/
def SciPort.shifted (c : SciPort) : SciPort :=
  { c with shiftReg := c.shiftReg >>> 1
           prepared := (c.prepared >>> 1) ||| ((c.shiftReg &&& 1#8) <<< 7)
           bitsLeft := c.bitsLeft - 1 }

/-- `bit_clock(port, late)` (R439). -/
def bitClock (check : Platform → Io) (port : Port) (late : Int) (p : Platform) : Io :=
  let c := (p.sci port).shifted
  let p := p.setSci c port
  if c.bitsLeft > 0 then .ok (addEvent cpuDomain ((c.cyclesPerBit : Int) - late) port p)
  else byteComplete check port p

/-! ### Write actions of the port's registers -/

/-- After SCR is stored (R433): the line is updated, and a byte queued while TE was 0 starts. -/
def scrAction (check : Platform → Io) (port : Port) (p : Platform) : Io :=
  (updateTxLine check port p).bind fun p =>
    let c := p.sci port
    if c.te && !c.busy && !c.txEmpty then sciStart check port p else .ok p

/-- `write_TDR(b)` (R434). -/
def tdrAction (check : Platform → Io) (port : Port) (b : Byte) (p : Platform) : Io :=
  (updateTxLine check port (p.setSci { p.sci port with tdr := b, txEmpty := false } port)).bind
    fun p => if !(p.sci port).busy && (p.sci port).te then sciStart check port p else .ok p

/-- The port after a write of `v` to SSR (R435): RDRF, ORER, FER and PER can only be cleared, MPBT
is stored, and TDRE, TEND and MPB do not change. -/
def SciPort.writeSsr (c : SciPort) (v : Byte) : SciPort :=
  { c with rdrf := c.rdrf && v.getLsbD 6
           orer := c.orer && v.getLsbD 5
           fer := c.fer && v.getLsbD 4
           per := c.per && v.getLsbD 3
           mpbt := v.getLsbD 0 }

end Sys2Proof.Machine
end

