-- ==== Sys2Proof/Machine/OnChip.lean ====
section
/-! DEFINITION. The on-chip register block (60_exceptions.md R370 to R373, R410 to R420, R430,
R450): which register each byte belongs to, what a register reads as, what a write stores, and the
action a write runs, by the byte-lane rule 20_memory.md R89. -/

namespace Sys2Proof.Machine

/-- The size of the block, 512 bytes (20_memory.md R86 (b)). -/
def onchipSize : Nat := 512

/-- The bytes of a register (R370, R411, R430). -/
def OnchipReg.width : OnchipReg → Nat
  | .smr _ => 1
  | .brr _ => 1
  | .scr _ => 1
  | .tdr _ => 1
  | .ssr _ => 1
  | .rdr _ => 1
  | .sar _ => 4
  | .dar _ => 4
  | .tcr _ => 2
  | .chcr _ => 2
  | .dmaor => 2
  | .intc _ => 2

/-- The offset of a port from the block's base: 0x05FFFEC0 and 0x05FFFEC8 at the default base
(R430). -/
def portBase : Port → Nat
  | .sci0 => 0x0C0
  | .sci1 => 0x0C8

/-- The offset of a channel: `B(c) = 0x05FFFF40 + 0x10*c` at the default base (R411). -/
def channelBase (c : Fin 4) : Nat := 0x140 + 0x10 * c.val

/-- The offset of an interrupt controller register (R370). -/
def intcOffset : IntcReg → Nat
  | .ipra => 0x184
  | .iprb => 0x186
  | .iprc => 0x188
  | .iprd => 0x18A
  | .ipre => 0x18C
  | .icr => 0x18E

/-- The offset of a register's first byte from the block's base. -/
def OnchipReg.offset : OnchipReg → Nat
  | .smr port => portBase port + 0
  | .brr port => portBase port + 1
  | .scr port => portBase port + 2
  | .tdr port => portBase port + 3
  | .ssr port => portBase port + 4
  | .rdr port => portBase port + 5
  | .sar c => channelBase c + 0x0
  | .dar c => channelBase c + 0x4
  | .tcr c => channelBase c + 0xA
  | .chcr c => channelBase c + 0xE
  | .dmaor => 0x148
  | .intc r => intcOffset r

/-- The registers of the serial ports, in ascending address order (R430). -/
def serialRegs : List OnchipReg :=
  [.smr .sci0, .brr .sci0, .scr .sci0, .tdr .sci0, .ssr .sci0, .rdr .sci0,
   .smr .sci1, .brr .sci1, .scr .sci1, .tdr .sci1, .ssr .sci1, .rdr .sci1]

/-- The registers of the DMA controller, in ascending address order (R411). -/
def dmaRegs : List OnchipReg :=
  [.sar 0, .dar 0, .dmaor, .tcr 0, .chcr 0, .sar 1, .dar 1, .tcr 1, .chcr 1,
   .sar 2, .dar 2, .tcr 2, .chcr 2, .sar 3, .dar 3, .tcr 3, .chcr 3]

/-- The registers of the interrupt controller, in ascending address order (R370). -/
def intcRegs : List OnchipReg :=
  [.intc .ipra, .intc .iprb, .intc .iprc, .intc .iprd, .intc .ipre, .intc .icr]

/-- The registers in ascending address order (R450). -/
def onchipRegs : List OnchipReg := serialRegs ++ (dmaRegs ++ intcRegs)

/-- The register that a byte of the block belongs to; none for an unassigned byte (R452). -/
def onchipRegAt (off : Nat) : Option OnchipReg :=
  onchipRegs.find? fun r => decide (r.offset ≤ off) && decide (off < r.offset + r.width)

/-! ### Reading -/

/-- The value of an interrupt controller register. -/
def Intc.get (c : Intc) : IntcReg → Half
  | .ipra => c.ipra
  | .iprb => c.iprb
  | .iprc => c.iprc
  | .iprd => c.iprd
  | .ipre => c.ipre
  | .icr => c.icr

/-- A DMA channel. -/
def Platform.chan (p : Platform) (c : Fin 4) : DmaChannel := p.dma[c.val]

/-- Replace a DMA channel. -/
def Platform.setChan (p : Platform) (c : Fin 4) (ch : DmaChannel) : Platform :=
  { p with dma := p.dma.set c.val ch }

/-- What a register reads as, in the low bits of a word. RDR reads 0x00 (R436); TCR reads the low 16
bits of the count (R413). No register has a read side effect (20_memory.md R90). -/
def Platform.onchipValue (p : Platform) : OnchipReg → Word
  | .smr port => (p.sci port).smr.setWidth 32
  | .brr port => (p.sci port).brr.setWidth 32
  | .scr port => (p.sci port).scr.setWidth 32
  | .tdr port => (p.sci port).tdr.setWidth 32
  | .ssr port => (p.sci port).ssr.setWidth 32
  | .rdr _ => 0x00
  | .sar c => (p.chan c).sar
  | .dar c => (p.chan c).dar
  | .tcr c => ((p.chan c).count.setWidth 16).setWidth 32
  | .chcr c => (p.chan c).chcr.setWidth 32
  | .dmaor => p.dmaor.setWidth 32
  | .intc r => (p.intc.get r).setWidth 32

/-- Byte lane `i` of a register, lane 0 the most significant byte (20_memory.md R89). -/
def Platform.onchipLane (p : Platform) (r : OnchipReg) (i : Nat) : Byte :=
  (splitBytes r.width (p.onchipValue r)).getD i 0

/-- One drawn byte (R452, R461): a free value, and the counter moves on. -/
def Platform.draw (p : Platform) : Byte × Platform :=
  (Config.freeByte p.draws, { p with draws := p.draws + 1 })

/-- The byte at an offset of the block: its register's lane, or a draw for an unassigned byte. -/
def Platform.onchipByte (p : Platform) (off : Nat) : Byte × Platform :=
  match onchipRegAt off with
  | some r => (p.onchipLane r (off - r.offset), p)
  | none => p.draw

/-- `n` bytes of the block from an offset up. -/
def Platform.onchipBytes : Nat → Nat → Platform → List Byte × Platform
  | 0, _, p => ([], p)
  | n + 1, off, p =>
    let (b, p) := p.onchipByte off
    let (bs, p) := Platform.onchipBytes n (off + 1) p
    (b :: bs, p)

/-! ### Writing -/

/-- The value a write of `bs` from offset `off` gives a register it overlaps: the new bytes merged
with the register's current ones (20_memory.md R89). -/
def Platform.merged (p : Platform) (r : OnchipReg) (off : Nat) (bs : List Byte) : Word :=
  joinBytes ((List.range r.width).map fun i =>
    if off ≤ r.offset + i ∧ r.offset + i < off + bs.length then bs.getD (r.offset + i - off) 0
    else p.onchipLane r i)

/-- The registers that `n` bytes from `off` up overlap, in ascending address order. -/
def touched (off n : Nat) : List OnchipReg :=
  onchipRegs.filter fun r => decide (r.offset < off + n) && decide (off < r.offset + r.width)

/-- The stored value of an interrupt controller register: IPRE[3:0] is written as 0 (R371), and ICR
keeps `v & 0x01FF` (R372). -/
def intcStored : IntcReg → Half → Half
  | .ipra, v => v
  | .iprb, v => v
  | .iprc, v => v
  | .iprd, v => v
  | .ipre, v => v &&& 0xFFF0
  | .icr, v => v &&& 0x01FF

/-- Replace an interrupt controller register. -/
def Intc.set (c : Intc) (v : Half) : IntcReg → Intc
  | .ipra => { c with ipra := v }
  | .iprb => { c with iprb := v }
  | .iprc => { c with iprc := v }
  | .iprd => { c with iprd := v }
  | .ipre => { c with ipre := v }
  | .icr => { c with icr := v }

/-- The CHCR value a write of `v` stores: TE can only be cleared (R415). -/
def chcrStored (old v : Half) : Half := (v &&& ~~~0x0002#16) ||| (v &&& old &&& 0x0002#16)

/-- Whether either step code of a CHCR value is 0b11, which has no step (R416). -/
def chcrStepReserved (v : Half) : Bool := v.extractLsb' 14 2 == 3#2 || v.extractLsb' 12 2 == 3#2

/-- Store a value in a register, as the first half of a write. A refused setting of CHCR (R415) or
SMR (R431) raises its fault and stores nothing. A TDR store puts the byte in TDR; that a byte is
queued belongs to its action. -/
def storeReg (r : OnchipReg) (v : Word) (p : Platform) : Io :=
  match r with
  | .smr port =>
    let b : Byte := v.setWidth 8
    if b.getLsbD 7 then .raise (.unimplemented .syncSerial r (b.setWidth 16)) p
    else .ok (p.setSci { p.sci port with smr := b } port)
  | .brr port => .ok (p.setSci { p.sci port with brr := v.setWidth 8 } port)
  | .scr port => .ok (p.setSci { p.sci port with scr := v.setWidth 8 } port)
  | .tdr port => .ok (p.setSci { p.sci port with tdr := v.setWidth 8 } port)
  | .ssr port => .ok (p.setSci ((p.sci port).writeSsr (v.setWidth 8)) port)
  | .rdr _ => .ok p
  | .sar c => .ok (p.setChan c { p.chan c with sar := v })
  | .dar c => .ok (p.setChan c { p.chan c with dar := v })
  | .tcr c => .ok (p.setChan c { p.chan c with count := tcrCount (v.setWidth 16) })
  | .chcr c =>
    let h : Half := v.setWidth 16
    if h.getLsbD 2 then .raise (.unimplemented .dmaInterrupt r h) p
    else if chcrStepReserved h then .raise (.unimplemented .dmaStep r h) p
    else .ok (p.setChan c { p.chan c with chcr := chcrStored (p.chan c).chcr h })
  | .dmaor => .ok { p with dmaor := v.setWidth 16 }
  | .intc r => .ok { p with intc := p.intc.set (intcStored r (v.setWidth 16)) r }

/-- The action of a write, run once for each touched register after every byte is stored
(20_memory.md R89, R92): a DMA register re-evaluates the channels (R422), SCR and TDR run R433 and
R434, and the other registers have none. -/
def regAction (check : Platform → Io) (r : OnchipReg) (v : Word) (p : Platform) : Io :=
  match r with
  | .smr _ => .ok p
  | .brr _ => .ok p
  | .scr port => scrAction check port p
  | .tdr port => tdrAction check port (v.setWidth 8) p
  | .ssr _ => .ok p
  | .rdr _ => .ok p
  | .sar _ => check p
  | .dar _ => check p
  | .tcr _ => check p
  | .chcr _ => check p
  | .dmaor => check p
  | .intc _ => .ok p

/-- Store the merged values of the touched registers, in ascending address order. -/
def storeAll : List (OnchipReg × Word) → Platform → Io
  | [], p => .ok p
  | (r, v) :: rest, p => (storeReg r v p).bind (storeAll rest)

/-- Run the actions of the touched registers, in ascending address order. -/
def actAll (check : Platform → Io) : List (OnchipReg × Word) → Platform → Io
  | [], p => .ok p
  | (r, v) :: rest, p => (regAction check r v p).bind (actAll check rest)

/-- A write of bytes to the block from offset `off` up (20_memory.md R89, R92); an unassigned byte
changes nothing (R452). -/
def Platform.writeOnchip (check : Platform → Io) (off : Nat) (bs : List Byte) (p : Platform) : Io :=
  let regs := (touched off bs.length).map fun r => (r, p.merged r off bs)
  (storeAll regs p).bind (actAll check regs)

end Sys2Proof.Machine
end

