-- ==== Sys2Proof/Machine/Bus.lean ====
section
/-! DEFINITION. The bus (20_memory.md R70 to R92): every access is translated and then served from
the page table or dispatched by address range, in the fixed order of R85. -/

namespace Sys2Proof.Machine

/-- What owns a translated address: a page-table entry, a device region outside this block, an
offset of the on-chip block, or nothing (R80, R85, R87). -/
inductive Target where
  | buffer (e : PageEntry)
  | device (r : Region)
  | onchip (off : Nat)
  | unmapped
deriving DecidableEq, Repr

/-- The device region of this kind that holds the translated address. -/
def Platform.deviceAt (p : Platform) (kind : DeviceKind) (t : Nat) : Option Region :=
  p.params.memoryMap.find? fun r =>
    decide (r.kind = .device kind) && decide (r.base ≤ t) && decide (t < r.base + r.size)

/-- The on-chip block holds the translated address. -/
def Platform.inOnchip (p : Platform) (t : Nat) : Bool :=
  decide (p.params.onchipBase ≤ t) && decide (t < p.params.onchipBase + onchipSize)

/-- The first of some kinds, in order, of which a device region holds the translated address. -/
def Platform.firstDevice (p : Platform) (t : Nat) (kinds : List DeviceKind) : Option Region :=
  kinds.findSome? fun kind => p.deviceAt kind t

/-- The owner of a translated address: the page table first (R80), then the slow path's ranges in
their fixed order (R85). -/
def Platform.target (p : Platform) (t : Nat) : Target :=
  match p.pageTable.lookup t with
  | some e => .buffer e
  | none =>
    match p.firstDevice t [.vdp, .consoleIo] with
    | some r => .device r
    | none =>
      if p.inOnchip t then .onchip (t - p.params.onchipBase)
      else
        match p.firstDevice t [.sound, .cartExpansion] with
        | some r => .device r
        | none => .unmapped

/-- The translated address of a logical one, as a number (R71). -/
def physical (a : Word) : Nat := (translate a).toNat

/-- The place in the buffers' storage of the byte at a logical address (R83), where a buffer owns it. -/
def Platform.place? (p : Platform) (a : Word) : Option Nat :=
  (p.pageTable.lookup (physical a)).map fun e => e.place (physical a)

/-- `VDP_WAIT` is part of the cost of the VDP's buffers and of every device region outside this block
(R88, 70_reset_and_hazards.md R502). -/
def Platform.bufferWait (p : Platform) : BufferKind → Nat
  | .bios => 0
  | .dram => 0
  | .onchipRam => 0
  | .cartSram => 0
  | .cartRom => 0
  | .vram => p.params.vdpWait

/-- The cost of an access, in CPU cycles (R88, 70_reset_and_hazards.md R502): the region's own, with the
wait where it applies. -/
def Platform.cost (p : Platform) (a : Word) : Nat :=
  match p.target (physical a) with
  | .buffer e => e.cost + p.bufferWait e.kind
  | .device r => r.cost + p.params.vdpWait
  | .onchip _ => 3
  | .unmapped => 1

/-- `n` drawn bytes (R90). -/
def Platform.drawBytes : Nat → Platform → List Byte × Platform
  | 0, p => ([], p)
  | n + 1, p =>
    let (b, p) := p.draw
    let (bs, p) := Platform.drawBytes n p
    (b :: bs, p)

/-- The bytes an access of `n` bytes reads: the buffer's (R83), drawn ones (R90), the registers'
lanes (R89), or zeros where nothing is mapped (R87). -/
def Platform.readBytes (p : Platform) (a : Word) (n : Nat) : List Byte × Platform :=
  match p.target (physical a) with
  | .buffer e => (p.mem.readBytes p.pageTable (e.place (physical a)) n, p)
  | .device _ => p.drawBytes n
  | .onchip off => Platform.onchipBytes n off p
  | .unmapped => (List.replicate n 0x00, p)

/-- `MemRead(addr, n)` (00_scope.md R13), the alignment check aside. -/
def Platform.read (p : Platform) (z : Size) (a : Word) : Word × Platform :=
  let (bs, p) := p.readBytes a z.bytes
  (joinBytes bs, p)

/-- `MemWrite(addr, n, v)` (00_scope.md R13), the alignment check aside: a buffer page takes the
bytes if it is writable and faults if not (R84), a device region outside the block sees an opaque
event (R90), the on-chip block runs R89, and an unmapped address drops the write (R87). -/
def Platform.writeWith (check : Platform → Io) (z : Size) (a v : Word) (p : Platform) : Io :=
  let bs := splitBytes z.bytes v
  match p.target (physical a) with
  | .buffer e =>
    if e.writable then
      .ok { p with mem := Memory.writeBytes p.pageTable p.mem (e.place (physical a)) bs }
    else .raise (.romWrite a) p
  | .device _ => .ok { p with envWrites := p.envWrites ++ [EnvWrite.mk a bs] }
  | .onchip off => p.writeOnchip check off bs
  | .unmapped => .ok p

end Sys2Proof.Machine
end

