-- ==== Sys2Proof/Machine/Dma.lean ====
section
/-! DEFINITION. The DMA controller (60_exceptions.md R410 to R424): a channel runs its whole
transfer inside the operation that started it, and a device write of one of its units may start
another channel. -/

namespace Sys2Proof.Machine

/-- CHCR.DE, bit 0 (R414). -/
def DmaChannel.de (c : DmaChannel) : Bool := c.chcr.getLsbD 0

/-- CHCR.TE, bit 1 (R414). -/
def DmaChannel.te (c : DmaChannel) : Bool := c.chcr.getLsbD 1

/-- CHCR.RS, bits 11:8 (R414). -/
def DmaChannel.rs (c : DmaChannel) : BitVec 4 := c.chcr.extractLsb' 8 4

/-- The unit size: CHCR.TS, bit 3, is 1 for words (R417). -/
def DmaChannel.unit (c : DmaChannel) : Size := if c.chcr.getLsbD 3 then .word else .byte

/-- The change of an address per unit, `step * size` (R416). Code 0b11 is never stored (R415). -/
def dmaStep (code : BitVec 2) (size : Word) : Word :=
  match code.toNat with
  | 1 => size
  | 2 => 0 - size
  | _ => 0

/-- `DMA_RS_MAP`: the line of a resource-select code; a code that names none is NONE (R418). -/
def Platform.rsLine (p : Platform) (code : BitVec 4) : DreqLine :=
  match p.params.dmaRsMap.lookup code with
  | some l => l
  | none => .none

/-- The request line of a channel is asserted. -/
def Platform.requested (p : Platform) (c : Fin 4) : Bool := p.asserted (p.rsLine (p.chan c).rs)

/-- The addresses and the count after one unit of size `z` (R423). -/
def DmaChannel.advance (c : DmaChannel) (z : Size) : DmaChannel :=
  { c with sar := c.sar + dmaStep (c.chcr.extractLsb' 12 2) z.scale
           dar := c.dar + dmaStep (c.chcr.extractLsb' 14 2) z.scale
           count := c.count - 1 }

/-- One unit: the source read, the destination write, then the addresses and the count (R423). A
misaligned access faults under either value of `MISALIGNED_POLICY` (20_memory.md R75, R424). -/
def dmaUnit (check : Platform → Io) (c : Fin 4) (z : Size) (p : Platform) : Io :=
  let src := (p.chan c).sar
  if !z.aligned src then .raise (.misaligned src z.bytes) p
  else
    let (v, p) := p.read z src
    let dst := (p.chan c).dar
    if !z.aligned dst then .raise (.misaligned dst z.bytes) p
    else (p.writeWith check z dst v).bind fun p => .ok (p.setChan c ((p.chan c).advance z))

/-- The condition of the loop of R423, tested before every unit. -/
def Platform.unitDue (p : Platform) (c : Fin 4) : Bool :=
  decide ((p.chan c).count ≠ 0) && p.requested c

/-- The loop of R423, at most `fuel` units; a loop with more is taken never to end (log entry 14). -/
def runUnits (check : Platform → Io) (c : Fin 4) (z : Size) : Nat → Platform → Io
  | 0, p => if p.unitDue c then .hang else .ok p
  | fuel + 1, p =>
    if p.unitDue c then (dmaUnit check c z p).bind (runUnits check c z fuel) else .ok p

/-- How many units one activation may move. A count is at most 0x10000, so only a channel that
rewrites its own TCR can reach this (log entry 14). -/
def dmaUnitBound : Nat := 4294967296

/-- TE is set when the count reaches 0 (R423). -/
def DmaChannel.finish (c : DmaChannel) : DmaChannel :=
  if c.count = 0 then { c with chcr := c.chcr ||| 0x0002 } else c

/-- `run_channel(c)` (R423). -/
def runChannel (check : Platform → Io) (c : Fin 4) (p : Platform) : Io :=
  (runUnits check c (p.chan c).unit dmaUnitBound p).bind fun p =>
    .ok (p.setChan c (p.chan c).finish)

/-- One round of the loop of `check_activations` (R422). -/
def activate (check : Platform → Io) (c : Fin 4) (p : Platform) : Io :=
  let ch := p.chan c
  if !ch.active && ch.de && !ch.te && p.requested c then
    (runChannel check c (p.setChan c { ch with active := true })).bind fun p =>
      .ok (p.setChan c { p.chan c with active := false })
  else .ok p

/-- The channels of a list, in order. -/
def activateAll (check : Platform → Io) : List (Fin 4) → Platform → Io
  | [], p => .ok p
  | c :: cs, p => (activate check c p).bind (activateAll check cs)

/-- `check_activations()` (R422) with at most `depth` channels running inside one another: a
re-entrant call finds one channel fewer that is not running. -/
def checkActivationsAt : Nat → Platform → Io
  | 0, p => .ok p
  | depth + 1, p => activateAll (checkActivationsAt depth) [0, 1, 2, 3] p

/-- `check_activations()` (R422). With four channels, no more than four can be running inside one
another, so the bound is never met. -/
def checkActivations : Platform → Io := checkActivationsAt 4

/-- `MemWrite(addr, n, v)` (00_scope.md R13), the alignment check aside. -/
def Platform.write (p : Platform) (z : Size) (a v : Word) : Io :=
  p.writeWith checkActivations z a v

end Sys2Proof.Machine
end

