-- ==== Sys2Proof/Machine/Scheduler.lean ====
section
/-! DEFINITION. The event scheduler (60_exceptions.md R400 to R409): the due events of a timer domain fire
in nondecreasing order of target, events with equal targets in insertion order, and an event added
while firing that is due at once fires after every event already due (R404, R405). -/

namespace Sys2Proof.Machine

/-- Insert an event after every event whose target is not later. -/
def insertEvent (e : Event) : List Event → List Event
  | [] => [e]
  | d :: l => if d.target ≤ e.target then d :: insertEvent e l else e :: d :: l

/-- Events by target, ties in insertion order. -/
def byTarget (l : List Event) : List Event := l.foldl (fun acc e => insertEvent e acc) []

/-- The event's target is not after the tick counter of its domain (R404). An event of a domain that does
not exist is never due. -/
def Platform.isDue (p : Platform) (e : Event) : Bool :=
  match p.tick e.domain with
  | some now => decide (e.target ≤ now)
  | none => false

/-- `cycles_late = now - target`, in the units of the event's domain (R404). -/
def Platform.lateness (p : Platform) (e : Event) : Int :=
  match p.tick e.domain with
  | some now => now - e.target
  | none => 0

/-- The timer domains, the CPU's first (R400). -/
def Platform.domains (p : Platform) : List Nat := List.range (p.params.clockDomains.length + 1)

/-- The due events of one domain in firing order (R404). -/
def Platform.dueIn (p : Platform) (d : Nat) : List Event :=
  byTarget (p.events.filter fun e => decide (e.domain = d) && p.isDue e)

/-- The due events in firing order: the domains one after another (log entry 28), each in its own order
(R404). -/
def Platform.dueEvents (p : Platform) : List Event := p.domains.flatMap p.dueIn

/-- `calc_slice_length(domain)` (R403): the distance to the domain's next event, or `SLICE_MAX`. -/
def Platform.calcSliceLength (p : Platform) (d : Nat) : Int :=
  match p.events.filter fun e => decide (e.domain = d) with
  | [] => p.params.sliceMax
  | e :: l => (l.foldl (fun acc e => min acc e.target) e.target) - (p.tick d).getD 0

/-- The slice the driver runs: "the minimum slice length across all timer domains" (R403). The step
advances one cycle at a time, so nothing else reads it (70_reset_and_hazards.md R501). -/
def Platform.sliceLength (p : Platform) : Int :=
  p.domains.foldl (fun acc d => min acc (p.calcSliceLength d)) (p.calcSliceLength cpuDomain)

/-- What a firing pass answers: the platform it leaves with the first fault raised in it, or none where
it never ends (R405, log entry 14). -/
abbrev Firing := Option (Platform × Option FaultReason)

/-- Call the handlers of events in order, each with `cycles_late` (R404). A fault that a DMA transfer
raises inside a handler abandons that handler alone; the first one is handed back (R409,
log entry 13). -/
def fireEach : List Event → Platform → Firing
  | [], p => some (p, none)
  | e :: l, p =>
    match bitClock checkActivations e.port (p.lateness e) p with
    | .ok p => fireEach l p
    | .raise r p => (fireEach l p).map fun q => (q.1, some r)
    | .hang => none

/-- Fire what is due, then what that made due, at most `fuel` times (R405). -/
def fireRounds : Nat → Platform → Firing
  | 0, p => some (p, none)
  | fuel + 1, p =>
    match p.dueEvents with
    | [] => some (p, none)
    | e :: l =>
      (fireEach (e :: l) { p with events := p.events.filter fun e => !p.isDue e }).bind fun q =>
        (fireRounds fuel q.1).map fun r => (r.1, q.2.or r.2)

/-- How many rounds one pass can take: an event due `n` ticks ago comes back at least 32 cycles later,
since a bit lasts at least 32 cycles (R405, R441). -/
def roundBound (p : Platform) : Nat :=
  p.events.foldl (fun acc e => max acc ((p.lateness e).toNat / 32 + 1)) 0

/-- One firing pass (R404). -/
def fireDue (p : Platform) : Firing := fireRounds (roundBound p) p

end Sys2Proof.Machine
end

