-- ==== Sys2Proof/Machine/Ops.lean ====
section
/-! DEFINITION. The named operations over registers and memory that the meanings of the instructions
share, how an instruction ends, and the taking of an exception and the return from one
(60_exceptions.md R353 to R362, 45_system.md R327). -/

namespace Sys2Proof.Machine

/-! ### Registers -/

/-- `R[n]` (00_scope.md R12). -/
def State.reg (s : State) (n : Reg) : Word := s.regs[n.toNat]'n.isLt

/-- `R[n] <- v` (00_scope.md R12). -/
def State.setReg (s : State) (n : Reg) (v : Word) : State :=
  { s with regs := s.regs.set n.toNat v n.isLt }

/-- `PC <- v`. -/
def State.setPc (s : State) (v : Word) : State := { s with pc := v }

/-- `PR <- v`. -/
def State.setPr (s : State) (v : Word) : State := { s with pr := v }

/-- `GBR <- v`. -/
def State.setGbr (s : State) (v : Word) : State := { s with gbr := v }

/-- `VBR <- v`. -/
def State.setVbr (s : State) (v : Word) : State := { s with vbr := v }

/-- `MACL <- v`. -/
def State.setMacl (s : State) (v : Word) : State := { s with macl := v }

/-- MACH as read: all 32 bits, or `sext_10(MACH[9:0])` (10_state.md R34). -/
def State.machValue (s : State) : Word :=
  match s.plat.params.machBits with
  | .bits32 => s.mach
  | .bits10 => (s.mach.extractLsb' 0 10).signExtend 32

/-- `MACH <- v`, of which 32 or 10 bits are kept (10_state.md R34). -/
def State.setMach (s : State) (v : Word) : State :=
  { s with mach := keptMach s.plat.params.machBits v }

/-- The accumulator `MACH:MACL` (10_state.md R34). -/
def State.mac (s : State) : BitVec 64 := s.machValue ++ s.macl

/-- `MACH <- v[63:32]; MACL <- v[31:0]`. -/
def State.setMac (s : State) (v : BitVec 64) : State :=
  (s.setMach (v.extractLsb' 32 32)).setMacl (v.extractLsb' 0 32)

/-- SR as one word, its reserved bits 0 (10_state.md R35). -/
def StatusReg.word (r : StatusReg) : Word :=
  0#22 ++ BitVec.ofBool r.m ++ BitVec.ofBool r.q ++ r.i ++ 0#2 ++ BitVec.ofBool r.s ++
    BitVec.ofBool r.t

/-- The fields of a word written to SR, which stores `v & 0x000003F3` (10_state.md R35). -/
def StatusReg.ofWord (v : Word) : StatusReg :=
  { t := v.getLsbD 0
    s := v.getLsbD 1
    i := v.extractLsb' 4 4
    q := v.getLsbD 8
    m := v.getLsbD 9 }

/-- SR as read. -/
def State.srWord (s : State) : Word := s.sr.word

/-- `SR <- v` (10_state.md R35). -/
def State.setSr (s : State) (v : Word) : State := { s with sr := StatusReg.ofWord v }

/-- `T <- b`. -/
def State.setT (s : State) (b : Bool) : State := { s with sr := { s.sr with t := b } }

/-- `Q <- q; T <- t`. -/
def State.setQT (s : State) (q t : Bool) : State := { s with sr := { s.sr with q := q, t := t } }

/-- `M <- m; Q <- q; T <- t`. -/
def State.setMQT (s : State) (m q t : Bool) : State :=
  { s with sr := { s.sr with m := m, q := q, t := t } }

/-- `I <- min(p, 15)` for a priority, nothing for `keep` (60_exceptions.md R360). -/
def State.raiseMask (s : State) : Option Nat → State
  | none => s
  | some p => { s with sr := { s.sr with i := BitVec.ofNat 4 (min p 15) } }

/-- `sleeping <- b`. -/
def State.setSleeping (s : State) (b : Bool) : State := { s with sleeping := b }

/-- `pipeline_valid <- false` (10_state.md R42). -/
def State.flush (s : State) : State := { s with pipe := { s.pipe with valid := false } }

/-- The bus left by an access, and the access's cost added to the latency of the step
(70_reset_and_hazards.md R503). -/
def State.charge (s : State) (p : Platform) (cost : Nat) : State :=
  { s with plat := p, execWait := s.execWait + cost }

/-- Replace the platform. -/
def State.setPlat (s : State) (p : Platform) : State := { s with plat := p }

/-! ### Sequencing -/

/-- Sequencing of the parts of an instruction or of an exception entry. -/
def Run.bind {α β : Type} (r : Run α) (k : α → State → Run β) : Run β :=
  match r with
  | .ok a s => k a s
  | .addressError s => .addressError s
  | .raise f s => .raise f s
  | .hang => .hang

/-! ### Bus accesses -/

/-- A misaligned data access of a CPU instruction, by `MISALIGNED_POLICY` (20_memory.md R75): it is
not performed, and a fault records the address of the instruction (60_exceptions.md R365). -/
def State.misaligned {α : Type} (s : State) (a : Word) (z : Size) : Run α :=
  match s.plat.params.misalignedPolicy with
  | .fault => .raise { reason := .misaligned a z.bytes, at_ := s.curAddr } s
  | .addressError => .addressError s

/-- `MemRead(a, n)` of an executing instruction (00_scope.md R13). -/
def dataRead (z : Size) (a : Word) (s : State) : Run Word :=
  if z.aligned a then
    .ok (s.plat.read z a).1 (s.charge (s.plat.read z a).2 (s.plat.cost a))
  else s.misaligned a z

/-- `MemWrite(a, n, v)` of an executing instruction (00_scope.md R13). -/
def dataWrite (z : Size) (a v : Word) (s : State) : Run Unit :=
  if z.aligned a then
    match s.plat.write z a v with
    | .ok p => .ok () (s.charge p (s.plat.cost a))
    | .raise r p => .raise { reason := r, at_ := s.curAddr } (s.setPlat p)
    | .hang => .hang
  else s.misaligned a z

/-- The vector read of an exception entry: misaligned it faults under either value of
`MISALIGNED_POLICY`, and a fault records the address of the access (60_exceptions.md R361, R365). -/
def entryRead (a : Word) (s : State) : Run Word :=
  if Size.long.aligned a then
    .ok (s.plat.read .long a).1 (s.charge (s.plat.read .long a).2 (s.plat.cost a))
  else .raise { reason := .misaligned a 4, at_ := a } s

/-- A push of an exception entry (60_exceptions.md R361, R365). -/
def entryWrite (a v : Word) (s : State) : Run Unit :=
  if Size.long.aligned a then
    match s.plat.write .long a v with
    | .ok p => .ok () (s.charge p (s.plat.cost a))
    | .raise r p => .raise { reason := r, at_ := a } (s.setPlat p)
    | .hang => .hang
  else .raise { reason := .misaligned a 4, at_ := a } s

/-! ### How an instruction ends -/

/-- What one step of the machine answers. -/
abbrev Answer := Host.Outcome State Fault Refusal

/-- The slot flags after an executed instruction: `in_delay_slot` when it performed a delayed branch,
`in_nointerrupt_slot` when its form is in `NOINT_SET` (60_exceptions.md R353, 30_encoding.md R134). -/
def State.retire (s : State) (i : Instr) (delayed : Bool) : State :=
  { s with inDelaySlot := delayed
           inNoIntSlot := s.plat.params.nointSet.contains i.matchWord }

/-- An instruction abandoned by a misaligned access under `address_error` closes any open slot, opens
none and leaves the error pending (60_exceptions.md R353, R362). -/
def State.abandon (s : State) : State :=
  { s with inDelaySlot := false, inNoIntSlot := false, pendingAddressError := true }

/-- `raise Fault` (60_exceptions.md R354): the CPU ends in the fault state. Where a hook's handler has set
a fault in this same step and did not suppress the instruction, which then faults itself, the
specification does not say which record stands: DESIGN CHOICE, unsafe: the instruction's replaces the
handler's (log entry 8). -/
def State.stop (s : State) (r : FaultRecord) : Answer :=
  .fault (.raised r { s with fault := some r })

/-- The end of an instruction whose effect has run. -/
def finish (i : Instr) (delayed : Bool) : Run Unit → Answer
  | .ok _ s => .next (s.retire i delayed)
  | .addressError s => .next s.abandon
  | .raise r s => s.stop r
  | .hang => .fault .endless

/-- The end of an instruction that made no bus access and left `s`. -/
def done (i : Instr) (s : State) : Answer := .next (s.retire i false)

/-- `delayed_branch(target)` (00_scope.md R15) as an instruction's last act. -/
def delayedBranch (i : Instr) (target : Word) (s : State) : Answer :=
  .next ((s.setPc target).retire i true)

/-- `taken_branch(target)` (00_scope.md R15) as an instruction's last act. -/
def takenBranch (i : Instr) (target : Word) (s : State) : Answer :=
  done i (s.setPc target).flush

/-- The slot-illegal check, made before anything else of a form that changes PC
(30_encoding.md R133, 60_exceptions.md R359). -/
def slotGuard (s : State) (body : Answer) : Answer :=
  if s.inDelaySlot then s.stop { reason := .slotIllegal s.curWord, at_ := s.curAddr } else body

/-! ### Loads and stores -/

/-- The register after a load is the value extended by the access's width
(40_data_transfer.md R151). -/
def loadReg (i : Instr) (z : Size) (a : Word) (n : Reg) (s : State) : Answer :=
  finish i false ((dataRead z a s).bind fun v s => .ok () (s.setReg n (z.extend v)))

/-- A store of the low bytes of `v` (40_data_transfer.md R151). -/
def storeValue (i : Instr) (z : Size) (a v : Word) (s : State) : Answer :=
  finish i false (dataWrite z a v s)

/-- A store with pre-decrement: the address register ends at the address stored to, and `v` was
captured before (40_data_transfer.md R152). -/
def pushValue (i : Instr) (z : Size) (v : Word) (n : Reg) (s : State) : Answer :=
  let a := eaPreDec z (s.reg n)
  finish i false ((dataWrite z a v s).bind fun _ s => .ok () (s.setReg n a))

/-- A load with post-increment: the destination is written after the increment, so that the loaded
value wins where the two registers are one (40_data_transfer.md R152). -/
def popReg (i : Instr) (z : Size) (m n : Reg) (s : State) : Answer :=
  finish i false ((dataRead z (s.reg m) s).bind fun v s =>
    .ok () ((s.setReg m (postInc z (s.reg m))).setReg n (z.extend v)))

/-- A long load with post-increment into a control or system register (45_system.md R310). -/
def popControl (i : Instr) (m : Reg) (put : State → Word → State) (s : State) : Answer :=
  finish i false ((dataRead .long (s.reg m) s).bind fun v s =>
    .ok () (put (s.setReg m (postInc .long (s.reg m))) v))

/-- A read and a write of one byte with nothing issued between them (42_logic.md R250,
20_memory.md R103); `flags` sees the byte read. -/
def modifyByte (i : Instr) (a : Word) (f : Word → Word) (flags : Word → State → State) (s : State) :
    Answer :=
  finish i false ((dataRead .byte a s).bind fun v s =>
    (dataWrite .byte a (f v) s).bind fun _ s => .ok () (flags v s))

/-! ### Exceptions -/

/-- `enter_exception(v, m)` (60_exceptions.md R360), with `none` for `keep`: push SR, push PC − 2,
read the vector; then the registers, R15 among them, are written together, so that an entry that
faults leaves every register as it was (R354), and the mask follows the pushes. -/
def enterException (v : BitVec 8) (m : Option Nat) (s : State) : Run Unit :=
  let sp₁ := s.reg 15 - 4
  let sp₂ := sp₁ - 4
  (entryWrite sp₁ s.srWord s).bind fun _ s =>
  (entryWrite sp₂ (s.pc - 2) s).bind fun _ s =>
  (entryRead (s.vbr + v.setWidth 32 * 4) s).bind fun target s =>
  .ok () ((((s.setReg 15 sp₂).setPc target).flush).raiseMask m)

/-- The return from an exception (45_system.md R327): pop PC, pop SR, and branch with a delay slot. -/
def returnFromException (i : Instr) (s : State) : Answer :=
  let sp := s.reg 15
  finish i true ((dataRead .long sp s).bind fun target s =>
    (dataRead .long (sp + 4) s).bind fun sr s =>
    .ok () (((s.setReg 15 (sp + 8)).setSr sr).setPc target))

/-- `assert_irq(v, p)` (60_exceptions.md R357, R367). A faulted CPU changes no more (R354). -/
def assertIrq (r : IrqRequest) (s : State) : State :=
  if s.fault.isSome then s
  else
    match s.pending with
    | none => { s with pending := some r }
    | some held =>
      match s.plat.params.irqSlotPolicy with
      | .overwrite => { s with pending := some r }
      | .keepHigher => if held.priority ≤ r.priority then { s with pending := some r } else s

/-- `can_accept` (60_exceptions.md R355). -/
def State.canAccept (s : State) (r : IrqRequest) : Bool :=
  decide (s.sr.i.toNat < r.priority) && s.pipe.valid && !s.inDelaySlot && !s.inNoIntSlot

/-- `take_pending()` (60_exceptions.md R350): the request is cleared, then dispatched. -/
def takePending (r : IrqRequest) (s : State) : Run Unit :=
  enterException r.vector (some r.priority) { s with pending := none }

end Sys2Proof.Machine
end

