-- ==== Sys2Proof/Machine/Arithmetic.lean ====
section
/-! DEFINITION. The arithmetic instructions (41_arithmetic.md): one definition for each form. -/

namespace Sys2Proof.Machine

/-! ### Shared parts -/

/-- The two operands of a multiply-accumulate, Rn's before Rm's, each register incremented after its
read; with one register the operands are consecutive (41_arithmetic.md R227, R228). `use` gets the
value at Rn, then the value at Rm. -/
def macOperands (i : Instr) (z : Size) (m n : Reg) (use : Word → Word → State → State) (s : State) :
    Answer :=
  let a := s.reg n
  let b := if n = m then postInc z a else s.reg m
  finish i false ((dataRead z a s).bind fun x s =>
    (dataRead z b s).bind fun y s =>
    .ok () (use x y ((s.setReg n (postInc z a)).setReg m (postInc z b))))

/-- The accumulation of MAC.W: modulo 2^64 when S is 0; when S is 1 on MACL alone, saturated, with
MACH's bit 0 set on saturation under `MACW_SAT_FLAG` (41_arithmetic.md R228). -/
def macWord (x y : Half) (s : State) : State :=
  if s.sr.s then
    let r := macWSaturate s.macl x y
    let s' := s.setMacl r.1
    if r.2 && s.plat.params.macwSatFlag then s'.setMach (s'.machValue ||| 1) else s'
  else s.setMac (macWSum s.mac x y)

/-! ### Addition -/

/-- `ADD Rm,Rn` (R204). -/
def execAdd (m n : Reg) (s : State) : Answer := done (.add m n) (s.setReg n (s.reg n + s.reg m))

/-- `ADD #imm,Rn` (R205). -/
def execAddImm (imm : BitVec 8) (n : Reg) (s : State) : Answer :=
  done (.addImm imm n) (s.setReg n (s.reg n + immSigned imm))

/-- `ADDC Rm,Rn` (R206). -/
def execAddc (m n : Reg) (s : State) : Answer :=
  let a := s.reg n
  let b := s.reg m
  done (.addc m n) ((s.setReg n (a + b + zext1 s.sr.t)).setT (carry a b s.sr.t))

/-- `ADDV Rm,Rn` (R207). -/
def execAddv (m n : Reg) (s : State) : Answer :=
  let a := s.reg n
  let b := s.reg m
  done (.addv m n) ((s.setReg n (a + b)).setT (addOverflow a b))

/-! ### Comparisons -/

/-- `CMP/EQ #imm,R0` (R208). -/
def execCmpEqImm (imm : BitVec 8) (s : State) : Answer :=
  done (.cmpEqImm imm) (s.setT (s.reg 0 == immSigned imm))

/-- `CMP/EQ Rm,Rn` (R209). -/
def execCmpEq (m n : Reg) (s : State) : Answer := done (.cmpEq m n) (s.setT (s.reg n == s.reg m))

/-- `CMP/HS Rm,Rn` (R210). -/
def execCmpHs (m n : Reg) (s : State) : Answer :=
  done (.cmpHs m n) (s.setT (geUnsigned (s.reg n) (s.reg m)))

/-- `CMP/GE Rm,Rn` (R211). -/
def execCmpGe (m n : Reg) (s : State) : Answer :=
  done (.cmpGe m n) (s.setT (geSigned (s.reg n) (s.reg m)))

/-- `CMP/HI Rm,Rn` (R212). -/
def execCmpHi (m n : Reg) (s : State) : Answer :=
  done (.cmpHi m n) (s.setT (gtUnsigned (s.reg n) (s.reg m)))

/-- `CMP/GT Rm,Rn` (R213). -/
def execCmpGt (m n : Reg) (s : State) : Answer :=
  done (.cmpGt m n) (s.setT (gtSigned (s.reg n) (s.reg m)))

/-- `CMP/PZ Rn` (R214). -/
def execCmpPz (n : Reg) (s : State) : Answer := done (.cmpPz n) (s.setT (geSigned (s.reg n) 0))

/-- `CMP/PL Rn` (R215). -/
def execCmpPl (n : Reg) (s : State) : Answer := done (.cmpPl n) (s.setT (gtSigned (s.reg n) 0))

/-- `CMP/STR Rm,Rn` (R216). -/
def execCmpStr (m n : Reg) (s : State) : Answer :=
  done (.cmpStr m n) (s.setT (anyByteZero (s.reg n ^^^ s.reg m)))

/-! ### Division steps -/

/-- `DIV1 Rm,Rn` (R217: Rm is read after the shift of Rn). -/
def execDiv1 (m n : Reg) (s : State) : Answer :=
  let divisor := fun shifted => if n = m then shifted else s.reg m
  let step := divStep (s.reg n) divisor s.sr.t s.sr.q s.sr.m
  done (.div1 m n) ((s.setReg n step.rn).setQT step.q step.t)

/-- `DIV0S Rm,Rn` (R218). -/
def execDiv0s (m n : Reg) (s : State) : Answer :=
  let q := (s.reg n).msb
  let b := (s.reg m).msb
  done (.div0s m n) (s.setMQT b q (q ^^ b))

/-- `DIV0U` (R219). -/
def execDiv0u (s : State) : Answer := done .div0u (s.setMQT false false false)

/-! ### Multiplication and DT -/

/-- `DMULS.L Rm,Rn` (R220). -/
def execDmulsL (m n : Reg) (s : State) : Answer :=
  done (.dmulsL m n) (s.setMac (mulSigned64 (s.reg n) (s.reg m)))

/-- `DMULU.L Rm,Rn` (R221). -/
def execDmuluL (m n : Reg) (s : State) : Answer :=
  done (.dmuluL m n) (s.setMac (mulUnsigned64 (s.reg n) (s.reg m)))

/-- `DT Rn` (R222). -/
def execDt (n : Reg) (s : State) : Answer :=
  let v := s.reg n - 1
  done (.dt n) ((s.setReg n v).setT (v == 0))

/-! ### Extension -/

/-- `EXTS.B Rm,Rn` (R223). -/
def execExtsB (m n : Reg) (s : State) : Answer :=
  done (.extsB m n) (s.setReg n (sext8 (lowByte (s.reg m))))

/-- `EXTS.W Rm,Rn` (R224). -/
def execExtsW (m n : Reg) (s : State) : Answer :=
  done (.extsW m n) (s.setReg n (sext16 (lowHalf (s.reg m))))

/-- `EXTU.B Rm,Rn` (R225). -/
def execExtuB (m n : Reg) (s : State) : Answer :=
  done (.extuB m n) (s.setReg n ((lowByte (s.reg m)).setWidth 32))

/-- `EXTU.W Rm,Rn` (R226). -/
def execExtuW (m n : Reg) (s : State) : Answer :=
  done (.extuW m n) (s.setReg n ((lowHalf (s.reg m)).setWidth 32))

/-! ### Multiply-accumulate -/

/-- `MAC.L @Rm+,@Rn+` (R227). -/
def execMacL (m n : Reg) (s : State) : Answer :=
  macOperands (.macL m n) .long m n (fun x y s => s.setMac (macLSum s.sr.s s.mac x y)) s

/-- `MAC.W @Rm+,@Rn+` (R228). -/
def execMacW (m n : Reg) (s : State) : Answer :=
  macOperands (.macW m n) .word m n (fun x y s => macWord (lowHalf x) (lowHalf y) s) s

/-! ### Single multiplication -/

/-- `MUL.L Rm,Rn` (R229). -/
def execMulL (m n : Reg) (s : State) : Answer := done (.mulL m n) (s.setMacl (s.reg n * s.reg m))

/-- `MULS.W Rm,Rn` (R230). -/
def execMulsW (m n : Reg) (s : State) : Answer :=
  done (.mulsW m n) (s.setMacl (mulSigned16 (lowHalf (s.reg n)) (lowHalf (s.reg m))))

/-- `MULU.W Rm,Rn` (R231). -/
def execMuluW (m n : Reg) (s : State) : Answer :=
  done (.muluW m n) (s.setMacl (mulUnsigned16 (lowHalf (s.reg n)) (lowHalf (s.reg m))))

/-! ### Negation and subtraction -/

/-- `NEG Rm,Rn` (R232). -/
def execNeg (m n : Reg) (s : State) : Answer := done (.neg m n) (s.setReg n (0 - s.reg m))

/-- `NEGC Rm,Rn` (R233). -/
def execNegc (m n : Reg) (s : State) : Answer :=
  let b := s.reg m
  done (.negc m n) ((s.setReg n (0 - b - zext1 s.sr.t)).setT (borrow 0 b s.sr.t))

/-- `SUB Rm,Rn` (R234). -/
def execSub (m n : Reg) (s : State) : Answer := done (.sub m n) (s.setReg n (s.reg n - s.reg m))

/-- `SUBC Rm,Rn` (R235). -/
def execSubc (m n : Reg) (s : State) : Answer :=
  let a := s.reg n
  let b := s.reg m
  done (.subc m n) ((s.setReg n (a - b - zext1 s.sr.t)).setT (borrow a b s.sr.t))

/-- `SUBV Rm,Rn` (R236). -/
def execSubv (m n : Reg) (s : State) : Answer :=
  let a := s.reg n
  let b := s.reg m
  done (.subv m n) ((s.setReg n (a - b)).setT (subOverflow a b))

end Sys2Proof.Machine
end

