-- ==== Sys2Proof/Machine/Branch.lean ====
section
/-! DEFINITION. The branch instructions (44_branch.md): one definition for each form. `PC` is the fetch
pointer (R290); a form that changes PC faults in a delay slot (R291). -/

namespace Sys2Proof.Machine

/-! ### Conditional branches -/

/-- `BF label` (R294). -/
def execBf (d : BitVec 8) (s : State) : Answer :=
  slotGuard s
    (if s.sr.t = false then takenBranch (.bf d) (branchTarget8 s.pc d) s else done (.bf d) s)

/-- `BF/S label` (R295). -/
def execBfS (d : BitVec 8) (s : State) : Answer :=
  slotGuard s
    (if s.sr.t = false then delayedBranch (.bfS d) (branchTarget8 s.pc d) s else done (.bfS d) s)

/-- `BT label` (R296). -/
def execBt (d : BitVec 8) (s : State) : Answer :=
  slotGuard s
    (if s.sr.t = true then takenBranch (.bt d) (branchTarget8 s.pc d) s else done (.bt d) s)

/-- `BT/S label` (R297). -/
def execBtS (d : BitVec 8) (s : State) : Answer :=
  slotGuard s
    (if s.sr.t = true then delayedBranch (.btS d) (branchTarget8 s.pc d) s else done (.btS d) s)

/-! ### Unconditional branches and jumps -/

/-- `BRA label` (R298). -/
def execBra (d : BitVec 12) (s : State) : Answer :=
  slotGuard s (delayedBranch (.bra d) (branchTarget12 s.pc d) s)

/-- `BRAF Rm` (R299). -/
def execBraf (m : Reg) (s : State) : Answer :=
  slotGuard s (delayedBranch (.braf m) (s.pc + s.reg m) s)

/-- `BSR label` (R300). -/
def execBsr (d : BitVec 12) (s : State) : Answer :=
  slotGuard s (delayedBranch (.bsr d) (branchTarget12 s.pc d) (s.setPr s.pc))

/-- `BSRF Rm` (R301). -/
def execBsrf (m : Reg) (s : State) : Answer :=
  slotGuard s (delayedBranch (.bsrf m) (s.pc + s.reg m) (s.setPr s.pc))

/-- `JMP @Rm` (R302). -/
def execJmp (m : Reg) (s : State) : Answer := slotGuard s (delayedBranch (.jmp m) (s.reg m) s)

/-- `JSR @Rm` (R303). -/
def execJsr (m : Reg) (s : State) : Answer :=
  slotGuard s (delayedBranch (.jsr m) (s.reg m) (s.setPr s.pc))

/-- `RTS` (R304). -/
def execRts (s : State) : Answer := slotGuard s (delayedBranch .rts s.pr s)

end Sys2Proof.Machine
end

