-- ==== Sys2Proof/Machine/DataTransfer.lean ====
section
/-! DEFINITION. The data transfer instructions (40_data_transfer.md): one definition for each form. -/

namespace Sys2Proof.Machine

/-! ### Immediate and PC-relative loads -/

/-- `MOV #imm,Rn` (R155). -/
def execMovImm (imm : BitVec 8) (n : Reg) (s : State) : Answer :=
  done (.movImm imm n) (s.setReg n (immSigned imm))

/-- `MOV.W @(disp,PC),Rn` (R156). -/
def execMovWPc (d : BitVec 8) (n : Reg) (s : State) : Answer :=
  loadReg (.movWPc d n) .word (eaPcWord s.pc d) n s

/-- `MOV.L @(disp,PC),Rn` (R157). -/
def execMovLPc (d : BitVec 8) (n : Reg) (s : State) : Answer :=
  loadReg (.movLPc d n) .long (eaPcLong s.pc d) n s

/-! ### Register and register-indirect moves -/

/-- `MOV Rm,Rn` (R158). -/
def execMov (m n : Reg) (s : State) : Answer := done (.mov m n) (s.setReg n (s.reg m))

/-- `MOV.B Rm,@Rn` (R159). -/
def execMovBStore (m n : Reg) (s : State) : Answer :=
  storeValue (.movBStore m n) .byte (s.reg n) (s.reg m) s

/-- `MOV.W Rm,@Rn` (R160). -/
def execMovWStore (m n : Reg) (s : State) : Answer :=
  storeValue (.movWStore m n) .word (s.reg n) (s.reg m) s

/-- `MOV.L Rm,@Rn` (R161). -/
def execMovLStore (m n : Reg) (s : State) : Answer :=
  storeValue (.movLStore m n) .long (s.reg n) (s.reg m) s

/-- `MOV.B @Rm,Rn` (R162). -/
def execMovBLoad (m n : Reg) (s : State) : Answer := loadReg (.movBLoad m n) .byte (s.reg m) n s

/-- `MOV.W @Rm,Rn` (R163). -/
def execMovWLoad (m n : Reg) (s : State) : Answer := loadReg (.movWLoad m n) .word (s.reg m) n s

/-- `MOV.L @Rm,Rn` (R164). -/
def execMovLLoad (m n : Reg) (s : State) : Answer := loadReg (.movLLoad m n) .long (s.reg m) n s

/-! ### Pre-decrement stores and post-increment loads -/

/-- `MOV.B Rm,@-Rn` (R165). -/
def execMovBPreDec (m n : Reg) (s : State) : Answer :=
  pushValue (.movBPreDec m n) .byte (s.reg m) n s

/-- `MOV.W Rm,@-Rn` (R166). -/
def execMovWPreDec (m n : Reg) (s : State) : Answer :=
  pushValue (.movWPreDec m n) .word (s.reg m) n s

/-- `MOV.L Rm,@-Rn` (R167). -/
def execMovLPreDec (m n : Reg) (s : State) : Answer :=
  pushValue (.movLPreDec m n) .long (s.reg m) n s

/-- `MOV.B @Rm+,Rn` (R168). -/
def execMovBPostInc (m n : Reg) (s : State) : Answer := popReg (.movBPostInc m n) .byte m n s

/-- `MOV.W @Rm+,Rn` (R169). -/
def execMovWPostInc (m n : Reg) (s : State) : Answer := popReg (.movWPostInc m n) .word m n s

/-- `MOV.L @Rm+,Rn` (R170). -/
def execMovLPostInc (m n : Reg) (s : State) : Answer := popReg (.movLPostInc m n) .long m n s

/-! ### Displacement forms -/

/-- `MOV.B R0,@(disp,Rn)` (R171). -/
def execMovBStoreDisp (d : BitVec 4) (n : Reg) (s : State) : Answer :=
  storeValue (.movBStoreDisp d n) .byte (eaDisp4 .byte (s.reg n) d) (s.reg 0) s

/-- `MOV.W R0,@(disp,Rn)` (R172). -/
def execMovWStoreDisp (d : BitVec 4) (n : Reg) (s : State) : Answer :=
  storeValue (.movWStoreDisp d n) .word (eaDisp4 .word (s.reg n) d) (s.reg 0) s

/-- `MOV.L Rm,@(disp,Rn)` (R173). -/
def execMovLStoreDisp (m : Reg) (d : BitVec 4) (n : Reg) (s : State) : Answer :=
  storeValue (.movLStoreDisp m d n) .long (eaDisp4 .long (s.reg n) d) (s.reg m) s

/-- `MOV.B @(disp,Rm),R0` (R174). -/
def execMovBLoadDisp (d : BitVec 4) (m : Reg) (s : State) : Answer :=
  loadReg (.movBLoadDisp d m) .byte (eaDisp4 .byte (s.reg m) d) 0 s

/-- `MOV.W @(disp,Rm),R0` (R175). -/
def execMovWLoadDisp (d : BitVec 4) (m : Reg) (s : State) : Answer :=
  loadReg (.movWLoadDisp d m) .word (eaDisp4 .word (s.reg m) d) 0 s

/-- `MOV.L @(disp,Rm),Rn` (R176). -/
def execMovLLoadDisp (d : BitVec 4) (m n : Reg) (s : State) : Answer :=
  loadReg (.movLLoadDisp d m n) .long (eaDisp4 .long (s.reg m) d) n s

/-! ### Indexed forms -/

/-- `MOV.B Rm,@(R0,Rn)` (R177). -/
def execMovBStoreIdx (m n : Reg) (s : State) : Answer :=
  storeValue (.movBStoreIdx m n) .byte (eaIndexed (s.reg n) (s.reg 0)) (s.reg m) s

/-- `MOV.W Rm,@(R0,Rn)` (R178). -/
def execMovWStoreIdx (m n : Reg) (s : State) : Answer :=
  storeValue (.movWStoreIdx m n) .word (eaIndexed (s.reg n) (s.reg 0)) (s.reg m) s

/-- `MOV.L Rm,@(R0,Rn)` (R179). -/
def execMovLStoreIdx (m n : Reg) (s : State) : Answer :=
  storeValue (.movLStoreIdx m n) .long (eaIndexed (s.reg n) (s.reg 0)) (s.reg m) s

/-- `MOV.B @(R0,Rm),Rn` (R180). -/
def execMovBLoadIdx (m n : Reg) (s : State) : Answer :=
  loadReg (.movBLoadIdx m n) .byte (eaIndexed (s.reg m) (s.reg 0)) n s

/-- `MOV.W @(R0,Rm),Rn` (R181). -/
def execMovWLoadIdx (m n : Reg) (s : State) : Answer :=
  loadReg (.movWLoadIdx m n) .word (eaIndexed (s.reg m) (s.reg 0)) n s

/-- `MOV.L @(R0,Rm),Rn` (R182). -/
def execMovLLoadIdx (m n : Reg) (s : State) : Answer :=
  loadReg (.movLLoadIdx m n) .long (eaIndexed (s.reg m) (s.reg 0)) n s

/-! ### GBR-based forms -/

/-- `MOV.B R0,@(disp,GBR)` (R183). -/
def execMovBStoreGbr (d : BitVec 8) (s : State) : Answer :=
  storeValue (.movBStoreGbr d) .byte (eaDisp8 .byte s.gbr d) (s.reg 0) s

/-- `MOV.W R0,@(disp,GBR)` (R184). -/
def execMovWStoreGbr (d : BitVec 8) (s : State) : Answer :=
  storeValue (.movWStoreGbr d) .word (eaDisp8 .word s.gbr d) (s.reg 0) s

/-- `MOV.L R0,@(disp,GBR)` (R185). -/
def execMovLStoreGbr (d : BitVec 8) (s : State) : Answer :=
  storeValue (.movLStoreGbr d) .long (eaDisp8 .long s.gbr d) (s.reg 0) s

/-- `MOV.B @(disp,GBR),R0` (R186). -/
def execMovBLoadGbr (d : BitVec 8) (s : State) : Answer :=
  loadReg (.movBLoadGbr d) .byte (eaDisp8 .byte s.gbr d) 0 s

/-- `MOV.W @(disp,GBR),R0` (R187). -/
def execMovWLoadGbr (d : BitVec 8) (s : State) : Answer :=
  loadReg (.movWLoadGbr d) .word (eaDisp8 .word s.gbr d) 0 s

/-- `MOV.L @(disp,GBR),R0` (R188). -/
def execMovLLoadGbr (d : BitVec 8) (s : State) : Answer :=
  loadReg (.movLLoadGbr d) .long (eaDisp8 .long s.gbr d) 0 s

/-! ### Address and flag moves, and byte rearrangement -/

/-- `MOVA @(disp,PC),R0` (R189: it makes no memory access). -/
def execMova (d : BitVec 8) (s : State) : Answer := done (.mova d) (s.setReg 0 (eaPcLong s.pc d))

/-- `MOVT Rn` (R190). -/
def execMovt (n : Reg) (s : State) : Answer := done (.movt n) (s.setReg n (zext1 s.sr.t))

/-- `SWAP.B Rm,Rn` (R191). -/
def execSwapB (m n : Reg) (s : State) : Answer :=
  let v := s.reg m
  done (.swapB m n) (s.setReg n (highHalf v ++ v.extractLsb' 0 8 ++ v.extractLsb' 8 8))

/-- `SWAP.W Rm,Rn` (R192). -/
def execSwapW (m n : Reg) (s : State) : Answer :=
  done (.swapW m n) (s.setReg n (lowHalf (s.reg m) ++ highHalf (s.reg m)))

/-- `XTRCT Rm,Rn` (R193). -/
def execXtrct (m n : Reg) (s : State) : Answer :=
  done (.xtrct m n) (s.setReg n (lowHalf (s.reg m) ++ highHalf (s.reg n)))

end Sys2Proof.Machine
end

