-- ==== Sys2Proof/Machine/Logic.lean ====
section
/-! DEFINITION. The logic instructions (42_logic.md): one definition for each form. -/

namespace Sys2Proof.Machine

/-! ### Shared parts -/

/-- The byte read-modify-write forms on `@(R0,GBR)`, which write no flag (42_logic.md R250). -/
def modifyGbr (i : Instr) (f : Word → Word) (s : State) : Answer :=
  modifyByte i (eaIndexed s.gbr (s.reg 0)) f (fun _ s => s) s

/-! ### AND -/

/-- `AND Rm,Rn` (R251). -/
def execAnd (m n : Reg) (s : State) : Answer := done (.and m n) (s.setReg n (s.reg n &&& s.reg m))

/-- `AND #imm,R0` (R252). -/
def execAndImm (imm : BitVec 8) (s : State) : Answer :=
  done (.andImm imm) (s.setReg 0 (s.reg 0 &&& immUnsigned imm))

/-- `AND.B #imm,@(R0,GBR)` (R253). -/
def execAndB (imm : BitVec 8) (s : State) : Answer :=
  modifyGbr (.andB imm) (fun v => v &&& immUnsigned imm) s

/-! ### NOT and OR -/

/-- `NOT Rm,Rn` (R254). -/
def execNot (m n : Reg) (s : State) : Answer := done (.not m n) (s.setReg n (~~~(s.reg m)))

/-- `OR Rm,Rn` (R255). -/
def execOr (m n : Reg) (s : State) : Answer := done (.or m n) (s.setReg n (s.reg n ||| s.reg m))

/-- `OR #imm,R0` (R256). -/
def execOrImm (imm : BitVec 8) (s : State) : Answer :=
  done (.orImm imm) (s.setReg 0 (s.reg 0 ||| immUnsigned imm))

/-- `OR.B #imm,@(R0,GBR)` (R257). -/
def execOrB (imm : BitVec 8) (s : State) : Answer :=
  modifyGbr (.orB imm) (fun v => v ||| immUnsigned imm) s

/-! ### TAS and TST -/

/-- `TAS.B @Rn` (R258). -/
def execTas (n : Reg) (s : State) : Answer :=
  modifyByte (.tas n) (s.reg n) (fun v => v ||| 0x80) (fun v s => s.setT (v == 0)) s

/-- `TST Rm,Rn` (R259). -/
def execTst (m n : Reg) (s : State) : Answer :=
  done (.tst m n) (s.setT ((s.reg n &&& s.reg m) == 0))

/-- `TST #imm,R0` (R260). -/
def execTstImm (imm : BitVec 8) (s : State) : Answer :=
  done (.tstImm imm) (s.setT ((s.reg 0 &&& immUnsigned imm) == 0))

/-- `TST.B #imm,@(R0,GBR)` (R261). -/
def execTstB (imm : BitVec 8) (s : State) : Answer :=
  finish (.tstB imm) false ((dataRead .byte (eaIndexed s.gbr (s.reg 0)) s).bind fun v s =>
    .ok () (s.setT ((v &&& immUnsigned imm) == 0)))

/-! ### XOR -/

/-- `XOR Rm,Rn` (R262). -/
def execXor (m n : Reg) (s : State) : Answer := done (.xor m n) (s.setReg n (s.reg n ^^^ s.reg m))

/-- `XOR #imm,R0` (R263). -/
def execXorImm (imm : BitVec 8) (s : State) : Answer :=
  done (.xorImm imm) (s.setReg 0 (s.reg 0 ^^^ immUnsigned imm))

/-- `XOR.B #imm,@(R0,GBR)` (R264). -/
def execXorB (imm : BitVec 8) (s : State) : Answer :=
  modifyGbr (.xorB imm) (fun v => v ^^^ immUnsigned imm) s

end Sys2Proof.Machine
end

