-- ==== Sys2Proof/Machine/Shift.lean ====
section
/-! DEFINITION. The shift and rotate instructions (43_shift.md): one definition for each form. -/

namespace Sys2Proof.Machine

/-! ### Rotates -/

/-- `ROTL Rn` (R271). -/
def execRotl (n : Reg) (s : State) : Answer :=
  let v := s.reg n
  done (.rotl n) ((s.setReg n ((v <<< 1) ||| zext1 v.msb)).setT (v.msb))

/-- `ROTR Rn` (R272). -/
def execRotr (n : Reg) (s : State) : Answer :=
  let v := s.reg n
  done (.rotr n) ((s.setReg n ((v >>> 1) ||| (zext1 (v.getLsbD 0) <<< 31))).setT (v.getLsbD 0))

/-- `ROTCL Rn` (R273). -/
def execRotcl (n : Reg) (s : State) : Answer :=
  let v := s.reg n
  done (.rotcl n) ((s.setReg n ((v <<< 1) ||| zext1 s.sr.t)).setT (v.msb))

/-- `ROTCR Rn` (R274). -/
def execRotcr (n : Reg) (s : State) : Answer :=
  let v := s.reg n
  done (.rotcr n) ((s.setReg n ((v >>> 1) ||| (zext1 s.sr.t <<< 31))).setT (v.getLsbD 0))

/-! ### One-bit shifts -/

/-- `SHAL Rn` (R275). -/
def execShal (n : Reg) (s : State) : Answer :=
  let v := s.reg n
  done (.shal n) ((s.setReg n (v <<< 1)).setT (v.msb))

/-- `SHAR Rn` (R276). -/
def execShar (n : Reg) (s : State) : Answer :=
  let v := s.reg n
  done (.shar n) ((s.setReg n (v.sshiftRight 1)).setT (v.getLsbD 0))

/-- `SHLL Rn` (R277). -/
def execShll (n : Reg) (s : State) : Answer :=
  let v := s.reg n
  done (.shll n) ((s.setReg n (v <<< 1)).setT (v.msb))

/-- `SHLR Rn` (R278). -/
def execShlr (n : Reg) (s : State) : Answer :=
  let v := s.reg n
  done (.shlr n) ((s.setReg n (v >>> 1)).setT (v.getLsbD 0))

/-! ### Fixed multi-bit shifts -/

/-- `SHLL2 Rn` (R279). -/
def execShll2 (n : Reg) (s : State) : Answer := done (.shll2 n) (s.setReg n (s.reg n <<< 2))

/-- `SHLR2 Rn` (R280). -/
def execShlr2 (n : Reg) (s : State) : Answer := done (.shlr2 n) (s.setReg n (s.reg n >>> 2))

/-- `SHLL8 Rn` (R281). -/
def execShll8 (n : Reg) (s : State) : Answer := done (.shll8 n) (s.setReg n (s.reg n <<< 8))

/-- `SHLR8 Rn` (R282). -/
def execShlr8 (n : Reg) (s : State) : Answer := done (.shlr8 n) (s.setReg n (s.reg n >>> 8))

/-- `SHLL16 Rn` (R283). -/
def execShll16 (n : Reg) (s : State) : Answer := done (.shll16 n) (s.setReg n (s.reg n <<< 16))

/-- `SHLR16 Rn` (R284). -/
def execShlr16 (n : Reg) (s : State) : Answer := done (.shlr16 n) (s.setReg n (s.reg n >>> 16))

end Sys2Proof.Machine
end

