-- ==== Sys2Proof/Machine/System.lean ====
section
/-! DEFINITION. The system and control instructions (45_system.md): one definition for each form. -/

namespace Sys2Proof.Machine

/-! ### Flag, MAC and no-op forms -/

/-- `CLRT` (R312). -/
def execClrt (s : State) : Answer := done .clrt (s.setT false)

/-- `CLRMAC` (R313). -/
def execClrmac (s : State) : Answer := done .clrmac (s.setMac 0)

/-! ### Control-register loads; the forms open the no-interrupt slot through `NOINT_SET` (R311) -/

/-- `LDC Rm,SR` (R314). -/
def execLdcSr (m : Reg) (s : State) : Answer := done (.ldcSr m) (s.setSr (s.reg m))

/-- `LDC Rm,GBR` (R315). -/
def execLdcGbr (m : Reg) (s : State) : Answer := done (.ldcGbr m) (s.setGbr (s.reg m))

/-- `LDC Rm,VBR` (R316). -/
def execLdcVbr (m : Reg) (s : State) : Answer := done (.ldcVbr m) (s.setVbr (s.reg m))

/-- `LDC.L @Rm+,SR` (R317). -/
def execLdcLSr (m : Reg) (s : State) : Answer := popControl (.ldcLSr m) m State.setSr s

/-- `LDC.L @Rm+,GBR` (R318). -/
def execLdcLGbr (m : Reg) (s : State) : Answer := popControl (.ldcLGbr m) m State.setGbr s

/-- `LDC.L @Rm+,VBR` (R319). -/
def execLdcLVbr (m : Reg) (s : State) : Answer := popControl (.ldcLVbr m) m State.setVbr s

/-! ### System-register loads -/

/-- `LDS Rm,MACH` (R320). -/
def execLdsMach (m : Reg) (s : State) : Answer := done (.ldsMach m) (s.setMach (s.reg m))

/-- `LDS Rm,MACL` (R321). -/
def execLdsMacl (m : Reg) (s : State) : Answer := done (.ldsMacl m) (s.setMacl (s.reg m))

/-- `LDS Rm,PR` (R322). -/
def execLdsPr (m : Reg) (s : State) : Answer := done (.ldsPr m) (s.setPr (s.reg m))

/-- `LDS.L @Rm+,MACH` (R323). -/
def execLdsLMach (m : Reg) (s : State) : Answer := popControl (.ldsLMach m) m State.setMach s

/-- `LDS.L @Rm+,MACL` (R324). -/
def execLdsLMacl (m : Reg) (s : State) : Answer := popControl (.ldsLMacl m) m State.setMacl s

/-- `LDS.L @Rm+,PR` (R325). -/
def execLdsLPr (m : Reg) (s : State) : Answer := popControl (.ldsLPr m) m State.setPr s

/-! ### NOP, RTE, SETT and SLEEP -/

/-- `NOP` (R326). -/
def execNop (s : State) : Answer := done .nop s

/-- `RTE` (R327). -/
def execRte (s : State) : Answer := slotGuard s (returnFromException .rte s)

/-- `SETT` (R328). -/
def execSett (s : State) : Answer := done .sett (s.setT true)

/-- `SLEEP` (R329). -/
def execSleep (s : State) : Answer :=
  match s.plat.params.sleepPolicy with
  | .halt => done .sleep (s.setSleeping true)
  | .spin => takenBranch .sleep (s.pc - 4) s

/-! ### Control-register stores -/

/-- `STC SR,Rn` (R330). -/
def execStcSr (n : Reg) (s : State) : Answer := done (.stcSr n) (s.setReg n s.srWord)

/-- `STC GBR,Rn` (R331). -/
def execStcGbr (n : Reg) (s : State) : Answer := done (.stcGbr n) (s.setReg n s.gbr)

/-- `STC VBR,Rn` (R332). -/
def execStcVbr (n : Reg) (s : State) : Answer := done (.stcVbr n) (s.setReg n s.vbr)

/-- `STC.L SR,@-Rn` (R333). -/
def execStcLSr (n : Reg) (s : State) : Answer := pushValue (.stcLSr n) .long s.srWord n s

/-- `STC.L GBR,@-Rn` (R334). -/
def execStcLGbr (n : Reg) (s : State) : Answer := pushValue (.stcLGbr n) .long s.gbr n s

/-- `STC.L VBR,@-Rn` (R335). -/
def execStcLVbr (n : Reg) (s : State) : Answer := pushValue (.stcLVbr n) .long s.vbr n s

/-! ### System-register stores -/

/-- `STS MACH,Rn` (R336). -/
def execStsMach (n : Reg) (s : State) : Answer := done (.stsMach n) (s.setReg n s.machValue)

/-- `STS MACL,Rn` (R337). -/
def execStsMacl (n : Reg) (s : State) : Answer := done (.stsMacl n) (s.setReg n s.macl)

/-- `STS PR,Rn` (R338). -/
def execStsPr (n : Reg) (s : State) : Answer := done (.stsPr n) (s.setReg n s.pr)

/-- `STS.L MACH,@-Rn` (R339). -/
def execStsLMach (n : Reg) (s : State) : Answer := pushValue (.stsLMach n) .long s.machValue n s

/-- `STS.L MACL,@-Rn` (R340). -/
def execStsLMacl (n : Reg) (s : State) : Answer := pushValue (.stsLMacl n) .long s.macl n s

/-- `STS.L PR,@-Rn` (R341). -/
def execStsLPr (n : Reg) (s : State) : Answer := pushValue (.stsLPr n) .long s.pr n s

/-! ### Trap -/

/-- `TRAPA #imm` (R342). -/
def execTrapa (imm : BitVec 8) (s : State) : Answer :=
  slotGuard s (finish (.trapa imm) false (enterException imm none s))

end Sys2Proof.Machine
end

