-- ==== Sys2Proof/Machine/Dispatch.lean ====
section
/-! DEFINITION. What an instruction does: one arm for each constructor of `Instr`, each one call of
the instruction's meaning. -/

namespace Sys2Proof.Machine

/-- `execute(x, xa)` (60_exceptions.md R350) of a decoded instruction, in the state after the fetch of
the step, together with the slot flags it leaves (R353). -/
def exec (i : Instr) (s : State) : Host.Outcome State Fault Refusal :=
  match i with
  -- data transfer
  | .movImm imm n => Sys2Proof.Machine.execMovImm imm n s
  | .movWPc d n => Sys2Proof.Machine.execMovWPc d n s
  | .movLPc d n => Sys2Proof.Machine.execMovLPc d n s
  | .mov m n => Sys2Proof.Machine.execMov m n s
  | .movBStore m n => Sys2Proof.Machine.execMovBStore m n s
  | .movWStore m n => Sys2Proof.Machine.execMovWStore m n s
  | .movLStore m n => Sys2Proof.Machine.execMovLStore m n s
  | .movBLoad m n => Sys2Proof.Machine.execMovBLoad m n s
  | .movWLoad m n => Sys2Proof.Machine.execMovWLoad m n s
  | .movLLoad m n => Sys2Proof.Machine.execMovLLoad m n s
  | .movBPreDec m n => Sys2Proof.Machine.execMovBPreDec m n s
  | .movWPreDec m n => Sys2Proof.Machine.execMovWPreDec m n s
  | .movLPreDec m n => Sys2Proof.Machine.execMovLPreDec m n s
  | .movBPostInc m n => Sys2Proof.Machine.execMovBPostInc m n s
  | .movWPostInc m n => Sys2Proof.Machine.execMovWPostInc m n s
  | .movLPostInc m n => Sys2Proof.Machine.execMovLPostInc m n s
  | .movBStoreDisp d n => Sys2Proof.Machine.execMovBStoreDisp d n s
  | .movWStoreDisp d n => Sys2Proof.Machine.execMovWStoreDisp d n s
  | .movLStoreDisp m d n => Sys2Proof.Machine.execMovLStoreDisp m d n s
  | .movBLoadDisp d m => Sys2Proof.Machine.execMovBLoadDisp d m s
  | .movWLoadDisp d m => Sys2Proof.Machine.execMovWLoadDisp d m s
  | .movLLoadDisp d m n => Sys2Proof.Machine.execMovLLoadDisp d m n s
  | .movBStoreIdx m n => Sys2Proof.Machine.execMovBStoreIdx m n s
  | .movWStoreIdx m n => Sys2Proof.Machine.execMovWStoreIdx m n s
  | .movLStoreIdx m n => Sys2Proof.Machine.execMovLStoreIdx m n s
  | .movBLoadIdx m n => Sys2Proof.Machine.execMovBLoadIdx m n s
  | .movWLoadIdx m n => Sys2Proof.Machine.execMovWLoadIdx m n s
  | .movLLoadIdx m n => Sys2Proof.Machine.execMovLLoadIdx m n s
  | .movBStoreGbr d => Sys2Proof.Machine.execMovBStoreGbr d s
  | .movWStoreGbr d => Sys2Proof.Machine.execMovWStoreGbr d s
  | .movLStoreGbr d => Sys2Proof.Machine.execMovLStoreGbr d s
  | .movBLoadGbr d => Sys2Proof.Machine.execMovBLoadGbr d s
  | .movWLoadGbr d => Sys2Proof.Machine.execMovWLoadGbr d s
  | .movLLoadGbr d => Sys2Proof.Machine.execMovLLoadGbr d s
  | .mova d => Sys2Proof.Machine.execMova d s
  | .movt n => Sys2Proof.Machine.execMovt n s
  | .swapB m n => Sys2Proof.Machine.execSwapB m n s
  | .swapW m n => Sys2Proof.Machine.execSwapW m n s
  | .xtrct m n => Sys2Proof.Machine.execXtrct m n s
  -- arithmetic
  | .add m n => Sys2Proof.Machine.execAdd m n s
  | .addImm imm n => Sys2Proof.Machine.execAddImm imm n s
  | .addc m n => Sys2Proof.Machine.execAddc m n s
  | .addv m n => Sys2Proof.Machine.execAddv m n s
  | .cmpEqImm imm => Sys2Proof.Machine.execCmpEqImm imm s
  | .cmpEq m n => Sys2Proof.Machine.execCmpEq m n s
  | .cmpHs m n => Sys2Proof.Machine.execCmpHs m n s
  | .cmpGe m n => Sys2Proof.Machine.execCmpGe m n s
  | .cmpHi m n => Sys2Proof.Machine.execCmpHi m n s
  | .cmpGt m n => Sys2Proof.Machine.execCmpGt m n s
  | .cmpPz n => Sys2Proof.Machine.execCmpPz n s
  | .cmpPl n => Sys2Proof.Machine.execCmpPl n s
  | .cmpStr m n => Sys2Proof.Machine.execCmpStr m n s
  | .div1 m n => Sys2Proof.Machine.execDiv1 m n s
  | .div0s m n => Sys2Proof.Machine.execDiv0s m n s
  | .div0u => Sys2Proof.Machine.execDiv0u s
  | .dmulsL m n => Sys2Proof.Machine.execDmulsL m n s
  | .dmuluL m n => Sys2Proof.Machine.execDmuluL m n s
  | .dt n => Sys2Proof.Machine.execDt n s
  | .extsB m n => Sys2Proof.Machine.execExtsB m n s
  | .extsW m n => Sys2Proof.Machine.execExtsW m n s
  | .extuB m n => Sys2Proof.Machine.execExtuB m n s
  | .extuW m n => Sys2Proof.Machine.execExtuW m n s
  | .macL m n => Sys2Proof.Machine.execMacL m n s
  | .macW m n => Sys2Proof.Machine.execMacW m n s
  | .mulL m n => Sys2Proof.Machine.execMulL m n s
  | .mulsW m n => Sys2Proof.Machine.execMulsW m n s
  | .muluW m n => Sys2Proof.Machine.execMuluW m n s
  | .neg m n => Sys2Proof.Machine.execNeg m n s
  | .negc m n => Sys2Proof.Machine.execNegc m n s
  | .sub m n => Sys2Proof.Machine.execSub m n s
  | .subc m n => Sys2Proof.Machine.execSubc m n s
  | .subv m n => Sys2Proof.Machine.execSubv m n s
  -- logic
  | .and m n => Sys2Proof.Machine.execAnd m n s
  | .andImm imm => Sys2Proof.Machine.execAndImm imm s
  | .andB imm => Sys2Proof.Machine.execAndB imm s
  | .not m n => Sys2Proof.Machine.execNot m n s
  | .or m n => Sys2Proof.Machine.execOr m n s
  | .orImm imm => Sys2Proof.Machine.execOrImm imm s
  | .orB imm => Sys2Proof.Machine.execOrB imm s
  | .tas n => Sys2Proof.Machine.execTas n s
  | .tst m n => Sys2Proof.Machine.execTst m n s
  | .tstImm imm => Sys2Proof.Machine.execTstImm imm s
  | .tstB imm => Sys2Proof.Machine.execTstB imm s
  | .xor m n => Sys2Proof.Machine.execXor m n s
  | .xorImm imm => Sys2Proof.Machine.execXorImm imm s
  | .xorB imm => Sys2Proof.Machine.execXorB imm s
  -- shifts and rotates
  | .rotl n => Sys2Proof.Machine.execRotl n s
  | .rotr n => Sys2Proof.Machine.execRotr n s
  | .rotcl n => Sys2Proof.Machine.execRotcl n s
  | .rotcr n => Sys2Proof.Machine.execRotcr n s
  | .shal n => Sys2Proof.Machine.execShal n s
  | .shar n => Sys2Proof.Machine.execShar n s
  | .shll n => Sys2Proof.Machine.execShll n s
  | .shlr n => Sys2Proof.Machine.execShlr n s
  | .shll2 n => Sys2Proof.Machine.execShll2 n s
  | .shlr2 n => Sys2Proof.Machine.execShlr2 n s
  | .shll8 n => Sys2Proof.Machine.execShll8 n s
  | .shlr8 n => Sys2Proof.Machine.execShlr8 n s
  | .shll16 n => Sys2Proof.Machine.execShll16 n s
  | .shlr16 n => Sys2Proof.Machine.execShlr16 n s
  -- branches
  | .bf d => Sys2Proof.Machine.execBf d s
  | .bfS d => Sys2Proof.Machine.execBfS d s
  | .bt d => Sys2Proof.Machine.execBt d s
  | .btS d => Sys2Proof.Machine.execBtS d s
  | .bra d => Sys2Proof.Machine.execBra d s
  | .braf m => Sys2Proof.Machine.execBraf m s
  | .bsr d => Sys2Proof.Machine.execBsr d s
  | .bsrf m => Sys2Proof.Machine.execBsrf m s
  | .jmp m => Sys2Proof.Machine.execJmp m s
  | .jsr m => Sys2Proof.Machine.execJsr m s
  | .rts => Sys2Proof.Machine.execRts s
  -- system and control
  | .clrt => Sys2Proof.Machine.execClrt s
  | .clrmac => Sys2Proof.Machine.execClrmac s
  | .ldcSr m => Sys2Proof.Machine.execLdcSr m s
  | .ldcGbr m => Sys2Proof.Machine.execLdcGbr m s
  | .ldcVbr m => Sys2Proof.Machine.execLdcVbr m s
  | .ldcLSr m => Sys2Proof.Machine.execLdcLSr m s
  | .ldcLGbr m => Sys2Proof.Machine.execLdcLGbr m s
  | .ldcLVbr m => Sys2Proof.Machine.execLdcLVbr m s
  | .ldsMach m => Sys2Proof.Machine.execLdsMach m s
  | .ldsMacl m => Sys2Proof.Machine.execLdsMacl m s
  | .ldsPr m => Sys2Proof.Machine.execLdsPr m s
  | .ldsLMach m => Sys2Proof.Machine.execLdsLMach m s
  | .ldsLMacl m => Sys2Proof.Machine.execLdsLMacl m s
  | .ldsLPr m => Sys2Proof.Machine.execLdsLPr m s
  | .nop => Sys2Proof.Machine.execNop s
  | .rte => Sys2Proof.Machine.execRte s
  | .sett => Sys2Proof.Machine.execSett s
  | .sleep => Sys2Proof.Machine.execSleep s
  | .stcSr n => Sys2Proof.Machine.execStcSr n s
  | .stcGbr n => Sys2Proof.Machine.execStcGbr n s
  | .stcVbr n => Sys2Proof.Machine.execStcVbr n s
  | .stcLSr n => Sys2Proof.Machine.execStcLSr n s
  | .stcLGbr n => Sys2Proof.Machine.execStcLGbr n s
  | .stcLVbr n => Sys2Proof.Machine.execStcLVbr n s
  | .stsMach n => Sys2Proof.Machine.execStsMach n s
  | .stsMacl n => Sys2Proof.Machine.execStsMacl n s
  | .stsPr n => Sys2Proof.Machine.execStsPr n s
  | .stsLMach n => Sys2Proof.Machine.execStsLMach n s
  | .stsLMacl n => Sys2Proof.Machine.execStsLMacl n s
  | .stsLPr n => Sys2Proof.Machine.execStsLPr n s
  | .trapa imm => Sys2Proof.Machine.execTrapa imm s

end Sys2Proof.Machine
end

