-- ==== Sys2Proof/Machine/Pipeline.lean ====
section
/-! DEFINITION. The pipeline step and the cycle (60_exceptions.md R350 to R359, 70_reset_and_hazards.md
R500 to R504): acceptance, fetch, hook check and execution of a ready point, and the scheduler and
the environment after it. -/

namespace Sys2Proof.Machine

/-! ### Acceptance and fetch -/

/-- The acceptance part of a ready point, at most one dispatch (R350, R362): a sleeping CPU wakes only
for an accepted request, and tests no address error. -/
def acceptStage (s : State) : Run Unit :=
  if !s.sleeping && s.pendingAddressError && s.pipe.valid && !s.inDelaySlot then
    enterException s.plat.params.addressErrorVector none { s with pendingAddressError := false }
  else
    match s.pending with
    | none => .ok () s
    | some r => if s.canAccept r then takePending r (s.setSleeping false) else .ok () s

/-- A sleeping CPU that accepts nothing does nothing at its ready point (R350, R358). -/
def State.staysAsleep (s : State) : Bool :=
  s.sleeping && !(s.pending.any s.canAccept)

/-- The fetch part of a ready point (R350, 20_memory.md R76): the word at PC enters the pipeline, and
the previous entry is what executes. An odd PC faults at PC. -/
def fetchStage (s : State) : Run Pipeline :=
  if Size.word.aligned s.pc then
    let r := s.plat.read .word s.pc
    .ok s.pipe
      { s with plat := r.2
               fetchWait := s.plat.cost s.pc
               pipe := { instruction := lowHalf r.1, src := s.pc, valid := true }
               pc := s.pc + 2 }
  else .raise { reason := .misaligned s.pc 2, at_ := s.pc } s

/-! ### Execution -/

/-- The instruction a word stands for on this machine (30_encoding.md R127, R129, R131). -/
def decodeFor (sh2 : Bool) (w : Half) : Option Instr :=
  (decodeWord w).filter (Instr.wellFormed sh2)

/-- `EXEC_LATENCY(op) - 1` (70_reset_and_hazards.md R503); a form that is not listed has latency 1. -/
def extraLatency (p : Params) (i : Instr) : Nat := (p.execLatency.lookup i.matchWord).getD 1 - 1

/-- The same for a word, which a hook may suppress without its being an instruction. -/
def extraLatencyOf (p : Params) (w : Half) : Nat :=
  match decodeFor p.sh2Extensions w with
  | some i => extraLatency p i
  | none => 0

/-- Add to the latency of the step. -/
def State.delay (s : State) (n : Nat) : State := { s with execWait := s.execWait + n }

/-- Execution of the word `x.instruction` (R350): an illegal word faults (30_encoding.md R131). An
instruction that goes on is charged `EXEC_LATENCY(op) - 1`, one abandoned under `address_error` (R362) as
well: 70_reset_and_hazards.md R503 charges it where "an instruction executed" and does not say whether an
abandoned one did; the model's choice is that it did, as R353 has it for the slot flags
(log entry 19). -/
def executeWord (w : Half) (s : State) : Answer :=
  match decodeFor s.plat.params.sh2Extensions w with
  | none => s.stop { reason := .illegalInstruction w, at_ := s.curAddr }
  | some i =>
    match exec i s with
    | .next s' => .next (s'.delay (extraLatency s.plat.params i))
    | .fault f => .fault f
    | .refused r => .refused r

/-- One move of a hook's handler (R462). A byte outside the buffers has no storage to change. -/
def applyHostAction (s : State) : HostAction → State
  | .setReg n v => s.setReg n v
  | .setPc v => s.setPc v
  | .setPr v => s.setPr v
  | .setGbr v => s.setGbr v
  | .setVbr v => s.setVbr v
  | .setMach v => s.setMach v
  | .setMacl v => s.setMacl v
  | .setSr v => s.setSr v
  | .setPipeline entry => { s with pipe := entry }
  | .setPending request => { s with pending := request }
  | .setPendingAddressError b => { s with pendingAddressError := b }
  | .setSleeping b => s.setSleeping b
  | .setFault record => { s with fault := some record }
  | .poke a b =>
    match s.plat.place? a with
    | some k => s.setPlat { s.plat with mem := s.plat.mem.write (s.plat.pageTable.unlisted k) k b }
    | none => s

/-- The slot flags after a suppressed instruction: any open slot closes, none opens (R353). -/
def State.closeSlots (s : State) : State := { s with inDelaySlot := false, inNoIntSlot := false }

/-- The state after a hook's call: the draw counter moves on, then the handler's moves are made. -/
def runHook (reply : HookReply) (s : State) : State :=
  reply.actions.foldl applyHostAction (s.setPlat { s.plat with draws := s.plat.draws + 1 })

/-- The execution part of a ready point, on the previous fetch `x` (R350, R463): the handler of a hook
at its address is called first, and may suppress the instruction. That a fault which the handler sets
does not keep an unsuppressed instruction from executing, and that a fault of that instruction replaces
the handler's record, are the model's choices (log entry 8). -/
def executeStage (x : Pipeline) (s : State) : Answer :=
  if x.valid then
    let s := { s with curAddr := x.src, curWord := x.instruction }
    match hookAt x.src s.plat.hooks with
    | none => executeWord x.instruction s
    | some h =>
      let reply := Config.hookReply h.handler x.src s
      let t := runHook reply s
      if reply.suppress then
        .next (t.closeSlots.delay (extraLatencyOf t.plat.params x.instruction))
      else executeWord x.instruction t
  else .next s

/-- `step()` of R350 at a ready point of a CPU that has not faulted. -/
def readyPoint (s : State) : Answer :=
  if s.staysAsleep then .next s
  else
    match (acceptStage s).bind fun _ s => fetchStage s with
    | .ok x s => executeStage x s
    | .addressError s => .next s
    | .raise r s => s.stop r
    | .hang => .fault .endless

/-! ### The cycle -/

/-- The decrements of a cycle (70_reset_and_hazards.md R500). A faulted CPU's counters stay
(60_exceptions.md R354). -/
def tick (s : State) : State :=
  if s.fault.isSome then s else { s with fetchWait := s.fetchWait - 1, execWait := s.execWait - 1 }

/-- The cycle is a ready point of a CPU that has not faulted (R350, R500). -/
def State.ready (s : State) : Bool :=
  s.fault.isNone && decide (s.fetchWait = 0) && decide (s.execWait = 0)

/-- `raise Fault` outside an instruction: the first fault is the one recorded
(60_exceptions.md R354, R365). -/
def State.fail (s : State) : Option FaultReason → State
  | none => s
  | some r => if s.fault.isSome then s else { s with fault := some { reason := r, at_ := s.curAddr } }

/-- The scheduler's part of a cycle (60_exceptions.md R404), none where it never ends. -/
def schedulerStage (s : State) : Option State :=
  (fireDue s.plat).map fun r => (s.setPlat r.1).fail r.2

/-- The priority field of IRQk: IPRA holds IRQ0 to IRQ3 and IPRB IRQ4 to IRQ7, four bits each from the
top down (60_exceptions.md R371). -/
def Intc.irqPriority (c : Intc) (k : Fin 8) : BitVec 4 :=
  (if k.val < 4 then c.ipra else c.iprb).extractLsb' (12 - 4 * (k.val % 4)) 4

/-- The request of an environment interrupt: `IRQ_VECTOR(k)` with the IPR field of the source at the
moment of the call, and `NMI_VECTOR` with 16 (60_exceptions.md R368). -/
def envRequest (p : Platform) : EnvIrq → IrqRequest
  | .irq k => { vector := p.params.irqVectors[k.val], priority := (p.intc.irqPriority k).toNat }
  | .nmi => { vector := p.params.nmiVector, priority := 16 }

/-- One move of the environment (60_exceptions.md R460, R462): a source outside `ENV_IRQ` is never
raised. -/
def applyEnvAction (s : State) : EnvAction → State
  | .raise source =>
    if s.plat.params.envIrq.contains source then assertIrq (envRequest s.plat source) s else s
  | .addHook h => s.setPlat { s.plat with hooks := addHook h s.plat.hooks }
  | .removeHook a => s.setPlat { s.plat with hooks := removeHook a s.plat.hooks }

/-- The environment's part of a cycle: the scheduled moves that are due, in their order, each made
once. -/
def environmentStage (s : State) : State :=
  let due := s.plat.env.filter fun e => decide (e.1 ≤ s.plat.now)
  let rest := s.plat.env.filter fun e => decide (s.plat.now < e.1)
  due.foldl (fun s e => applyEnvAction s e.2) (s.setPlat { s.plat with env := rest })

/-- `now <- now + 1` (R500). -/
def State.advance (s : State) : State := s.setPlat { s.plat with now := s.plat.now + 1 }

/-- The cycle after the CPU's part: the scheduler, the environment, and the clock (R500); none where the
scheduler's part never ends. -/
def endCycle (s : State) : Option State :=
  (schedulerStage s).map fun s => (environmentStage s).advance

/-- The answer of a cycle whose CPU part went on with `t`, from a state with the fault `before`: a fault
raised in this cycle is answered, with the state at its end. -/
def closeCycle (before : Option FaultRecord) (t : State) : Answer :=
  match endCycle t with
  | none => .fault .endless
  | some u =>
    match before, u.fault with
    | none, some r => .fault (.raised r u)
    | _, _ => .next u

/-- The answer of a cycle whose CPU part ended in a fault, with `t`: the state at the end of the cycle
goes with it. -/
def stopCycle (r : FaultRecord) (t : State) : Answer :=
  match endCycle t with
  | none => .fault .endless
  | some u => .fault (.raised r u)

/-- One CPU cycle (R500). A cycle in which a fault is raised answers that fault, with the state at the
end of the cycle; a faulted CPU lets time pass (60_exceptions.md R409). -/
def cycle (s : State) : Answer :=
  let t := tick s
  let cpu := if t.ready then readyPoint t else .next t
  match cpu with
  | .next t => closeCycle s.fault t
  | .fault (.raised r t) => stopCycle r t
  | .fault .endless => .fault .endless
  | .refused r => .refused r

end Sys2Proof.Machine
end

