-- ==== Sys2Proof/Machine/Step.lean ====
section
/-! DEFINITION. One step of the machine, and placing one instruction where the next step runs it. -/

namespace Sys2Proof.Machine

/-- One step of the machine: one CPU cycle (70_reset_and_hazards.md R500). -/
def step (s : State) : Host.Outcome State Fault Refusal := cycle s

/-- `s` with the instruction word `w` prefetched, so that the next step is a ready point that executes
it: the pipeline holds it, no wait and no sleep is left, nothing is waiting to be accepted, no hook
stands in its way, and PC is the even address after it, where the step fetches (log entry 1). -/
def State.withFetchWord (s : State) (_nbits w : Nat) : State :=
  let src := s.pipe.src &&& 0xFFFFFFFE
  { s with
    pipe := { instruction := BitVec.ofNat 16 w, src := src, valid := true }
    pc := src + 2
    pending := none
    pendingAddressError := false
    sleeping := false
    fault := none
    fetchWait := 0
    execWait := 0
    plat := { s.plat with hooks := removeHook src s.plat.hooks } }

end Sys2Proof.Machine
end

