-- ==== Sys2Proof/Safety.lean ====
section
/-! DEFINITION. What claims about runs speak of: the invariant of the machine's state, reaching a state
in a number of cycles, and the end of a run (70_reset_and_hazards.md R510). -/

namespace Sys2Proof.Machine

/-! ### The invariant -/

/-- A DMA channel as every write leaves it: no interrupt enable and no reserved step code is ever
stored (60_exceptions.md R415), and the count is at most 0x10000 (R410). -/
structure DmaChannel.Legal (c : DmaChannel) : Prop where
  noInterrupt : c.chcr.getLsbD 2 = false
  steps       : chcrStepReserved c.chcr = false
  count       : c.count.toNat ≤ 0x10000

/-- A serial port as every write leaves it: never in synchronous mode (60_exceptions.md R431), its
receiver inert (R436), and at most eight bits to shift (R437). -/
structure SciPort.Legal (c : SciPort) : Prop where
  asynchronous : c.smr.getLsbD 7 = false
  rdrf         : c.rdrf = false
  orer         : c.orer = false
  fer          : c.fer = false
  per          : c.per = false
  bitsLeft     : c.bitsLeft ≤ 8

/-- What holds of the platform between any two operations. -/
structure Platform.Inv (p : Platform) : Prop where
  /-- The buffers' bytes are in canonical form. -/
  memory   : Memory.wf p.pageTable.unlisted p.mem = true
  /-- R410, R415. -/
  channels : ∀ c : Fin 4, (p.chan c).Legal
  /-- R431, R436, R437. -/
  ports    : ∀ port : Port, (p.sci port).Legal
  /-- IPRE[3:0] reads 0 (R371). -/
  ipre     : p.intc.ipre &&& 0x000F = 0
  /-- Only ICR[8:0] is stored (R372). -/
  icr      : p.intc.icr &&& 0xFE00 = 0
  /-- The RX request lines are never asserted (R419). -/
  rxLines  : p.lines.sci0Rx = false ∧ p.lines.sci1Rx = false

/-- What holds of the machine between any two cycles: the platform's invariant, the bits of MACH that
`MACH_BITS = 10` does not keep are 0 (10_state.md R34), and no two hooks stand at one address
(60_exceptions.md R462). -/
structure State.Inv (s : State) : Prop where
  plat  : s.plat.Inv
  mach  : s.plat.params.machBits = .bits10 → s.mach &&& 0xFFFFFC00 = 0
  hooks : s.plat.hooks.Pairwise fun g h => g.address ≠ h.address

/-! ### Runs -/

/-- `t` is reached from `s` after `k` cycles, none of which faults. -/
def Reaches (k : Nat) (s t : State) : Prop := Sys2Proof.core.run k s = .next t

/-- A run from `s` is safe for `k` cycles: it neither faults nor is refused. -/
def SafeFor (k : Nat) (s : State) : Prop := ∃ t, Reaches k s t

/-- The conditions of the end of a run (70_reset_and_hazards.md R510): the next cycle is a ready point of
a CPU that has not faulted, at which the pipeline holds the instruction at `endPc` and no slot is
open. -/
def State.atEnd (endPc : Word) (s : State) : Bool :=
  (tick s).ready && s.pipe.valid && (s.pipe.src == endPc) && !s.inDelaySlot && !s.inNoIntSlot

/-- The run of a launch ends after `k` cycles in `t`: `t` is its first ready point that meets the
conditions, so the instruction at `END_PC` is not executed (70_reset_and_hazards.md R510). The
observation is `t`, which holds the serial output log; it is the state before that ready point's step
(log entry 29). A run that faults or never meets them has no end. -/
structure Launch.EndsAt (l : Launch) (k : Nat) (t : State) : Prop where
  reached : Reaches k (State.powerOn l) t
  atEnd   : t.atEnd l.endPc = true
  first   : ∀ j u, j < k → Reaches j (State.powerOn l) u → u.atEnd l.endPc = false

end Sys2Proof.Machine
end

