-- ==== Sys2Proof/Certificates/Slice0/Obligations.lean ====
section
/-! DEFINITION. The statements for the provers. The first part is their vocabulary: which pieces of state
a statement names as changed, what completing means, and the effective addresses as plain arithmetic. -/

namespace Sys2Proof.Claims

open Sys2Proof.Machine

/-! ### Pieces of state and frames -/

/-- The byte at a place of the buffers' storage. -/
def byteAt (p : Platform) (k : Nat) : Byte := p.mem.read (p.pageTable.unlisted k) k

/-- The place in the buffers' storage of the byte at a logical address that a buffer owns
(20_memory.md R80, R83: the page-table entry's base and the low 12 bits of the translated address). -/
def place (p : Platform) (a : Word) : Nat :=
  match p.pageTable.lookup (physical a) with
  | some e => 4096 * (e.buffer.page + e.index) + physical a % 4096
  | none => 0

/-- Every piece of state. `devices` is everything of the platform but the buffers' bytes, the draw
counter and the list of writes handed to the environment. -/
inductive Part where
  | reg (n : Reg)
  | pc
  | pr
  | gbr
  | vbr
  | mach
  | macl
  | flagT
  | flagS
  | mask
  | flagQ
  | flagM
  | pipeline
  | delaySlot
  | noInterruptSlot
  | pending
  | addressError
  | sleeping
  | fault
  | fetchWait
  | execWait
  | current
  | byte (a : Nat)
  | draws
  | envWrites
  | devices
deriving DecidableEq

/-- A piece of state is the same in both states. -/
def Part.kept (s t : State) : Part → Prop
  | .reg n => t.reg n = s.reg n
  | .pc => t.pc = s.pc
  | .pr => t.pr = s.pr
  | .gbr => t.gbr = s.gbr
  | .vbr => t.vbr = s.vbr
  | .mach => t.mach = s.mach
  | .macl => t.macl = s.macl
  | .flagT => t.sr.t = s.sr.t
  | .flagS => t.sr.s = s.sr.s
  | .mask => t.sr.i = s.sr.i
  | .flagQ => t.sr.q = s.sr.q
  | .flagM => t.sr.m = s.sr.m
  | .pipeline => t.pipe = s.pipe
  | .delaySlot => t.inDelaySlot = s.inDelaySlot
  | .noInterruptSlot => t.inNoIntSlot = s.inNoIntSlot
  | .pending => t.pending = s.pending
  | .addressError => t.pendingAddressError = s.pendingAddressError
  | .sleeping => t.sleeping = s.sleeping
  | .fault => t.fault = s.fault
  | .fetchWait => t.fetchWait = s.fetchWait
  | .execWait => t.execWait = s.execWait
  | .current => t.curAddr = s.curAddr ∧ t.curWord = s.curWord
  | .byte a => byteAt t.plat a = byteAt s.plat a
  | .draws => t.plat.draws = s.plat.draws
  | .envWrites => t.plat.envWrites = s.plat.envWrites
  | .devices =>
    { t.plat with mem := s.plat.mem, draws := s.plat.draws, envWrites := s.plat.envWrites } = s.plat

/-- The pieces of the CPU: all but those of the platform. -/
def Part.ofCpu : Part → Bool
  | .byte _ => false
  | .draws => false
  | .envWrites => false
  | .devices => false
  | _ => true

/-- Nothing is changed but the listed pieces. -/
def Frame (changed : List Part) (s t : State) : Prop := ∀ x, x ∉ changed → x.kept s t

/-- Nothing of the CPU is changed but the listed pieces. -/
def CpuFrame (changed : List Part) (s t : State) : Prop :=
  ∀ x, x ∉ changed → x.ofCpu = true → x.kept s t

/-- Nothing is changed but the listed pieces and the `n` bytes stored from the place `lo` up. -/
def StoreFrame (changed : List Part) (lo n : Nat) (s t : State) : Prop :=
  ∀ x, x ∉ changed → (∀ a, x = .byte a → a < lo ∨ lo + n ≤ a) → x.kept s t

/-! ### Completing -/

/-- The slot flags after `i` (60_exceptions.md R353): a delay slot is open exactly after a delayed
branch, a no-interrupt slot exactly after a form of `NOINT_SET`. -/
def Retired (i : Instr) (delayed : Bool) (s t : State) : Prop :=
  t.inDelaySlot = delayed ∧ t.inNoIntSlot = s.plat.params.nointSet.contains i.matchWord

/-- The slot flags. -/
def slots : List Part := [.delaySlot, .noInterruptSlot]

/-- `i` completes, with `post` of the next state, any slot closed, and nothing changed but the listed
pieces and the slot flags. -/
def Completes (i : Instr) (s : State) (changed : List Part) (post : State → Prop) : Prop :=
  ∃ t, exec i s = .next t ∧ post t ∧ Retired i false s t ∧ Frame (slots ++ changed) s t

/-- `i` completes as a delayed branch: control goes to `target` after the slot instruction, which the
pipeline still holds. -/
def Branches (i : Instr) (s : State) (target : Word) (changed : List Part) (post : State → Prop) :
    Prop :=
  ∃ t, exec i s = .next t ∧ t.pc = target ∧ post t ∧ Retired i true s t ∧
    Frame (slots ++ .pc :: changed) s t

/-- `i` completes, leaving the platform `p`. -/
def CompletesOn (i : Instr) (s : State) (p : Platform) (changed : List Part) (post : State → Prop) :
    Prop :=
  ∃ t, exec i s = .next t ∧ t.plat = p ∧ post t ∧ Retired i false s t ∧
    CpuFrame (slots ++ .execWait :: changed) s t

/-- `i` completes, storing `n` bytes from the place `lo` up. -/
def CompletesStoring (i : Instr) (s : State) (lo n : Nat) (changed : List Part)
    (post : State → Prop) : Prop :=
  ∃ t, exec i s = .next t ∧ post t ∧ Retired i false s t ∧
    StoreFrame (slots ++ .execWait :: changed) lo n s t

/-- The `n` bytes from the place `lo` up hold the low `8n` bits of `v`, most significant
byte first (20_memory.md R77). -/
def Holds (p : Platform) (lo n : Nat) (v : Word) : Prop :=
  ∀ k, k < n → (byteAt p (lo + k)).toNat = v.toNat / 256 ^ (n - 1 - k) % 256

/-- The page table maps the logical address to a page that may be written. -/
def Writable (p : Platform) (a : Word) : Prop :=
  ∃ e, p.target (physical a) = .buffer e ∧ e.writable = true

/-- The page table maps the logical address to a BIOS or ROM page. -/
def ReadOnly (p : Platform) (a : Word) : Prop :=
  ∃ e, p.target (physical a) = .buffer e ∧ e.writable = false

/-- The buffers' bytes are in canonical form. -/
def Canonical (p : Platform) : Prop := Memory.wf p.pageTable.unlisted p.mem = true

/-- The address meets the alignment rule of an access of this width (20_memory.md R74). -/
def Aligned (z : Size) (a : Word) : Prop := a.toNat % z.bytes = 0

/-- What a load of this width leaves of the value read (40_data_transfer.md R151). -/
def Loaded (z : Size) (v r : Word) : Prop :=
  match z with
  | .byte => r.toInt = (v.setWidth 8).toInt
  | .word => r.toInt = (v.setWidth 16).toInt
  | .long => r = v

/-- The bits of MACH that are kept of `h`, as read (10_state.md R34). -/
def keptHigh (bits : MachBits) (h : Word) : Word :=
  match bits with
  | .bits32 => h
  | .bits10 => BitVec.ofInt 32 (h.setWidth 10).toInt

/-- `MACH:MACL` holds `v` modulo 2^64, as far as MACH's bits are kept. -/
def AccumulatorIs (t : State) (v : Int) : Prop :=
  t.macl = BitVec.ofInt 32 v ∧
    t.machValue = keptHigh t.plat.params.machBits (BitVec.ofInt 32 (v / 2 ^ 32))

/-- `v` brought into the range from `lo` to `hi`. -/
def clamp (lo hi v : Int) : Int := max lo (min hi v)

/-! ### Which form accesses what -/

/-- The loads into a register without increment: width, effective address, destination
(40_data_transfer.md R156, R157, R162 to R164, R174 to R176, R180 to R182, R186 to R188). -/
def loadOf (s : State) : Instr → Option (Size × Word × Reg)
  | .movWPc d n => some (.word, BitVec.ofNat 32 (s.pc.toNat + 2 * d.toNat), n)
  | .movLPc d n => some (.long, BitVec.ofNat 32 (s.pc.toNat / 4 * 4 + 4 * d.toNat), n)
  | .movBLoad m n => some (.byte, s.reg m, n)
  | .movWLoad m n => some (.word, s.reg m, n)
  | .movLLoad m n => some (.long, s.reg m, n)
  | .movBLoadDisp d m => some (.byte, BitVec.ofNat 32 ((s.reg m).toNat + d.toNat), 0)
  | .movWLoadDisp d m => some (.word, BitVec.ofNat 32 ((s.reg m).toNat + 2 * d.toNat), 0)
  | .movLLoadDisp d m n => some (.long, BitVec.ofNat 32 ((s.reg m).toNat + 4 * d.toNat), n)
  | .movBLoadIdx m n => some (.byte, BitVec.ofNat 32 ((s.reg m).toNat + (s.reg 0).toNat), n)
  | .movWLoadIdx m n => some (.word, BitVec.ofNat 32 ((s.reg m).toNat + (s.reg 0).toNat), n)
  | .movLLoadIdx m n => some (.long, BitVec.ofNat 32 ((s.reg m).toNat + (s.reg 0).toNat), n)
  | .movBLoadGbr d => some (.byte, BitVec.ofNat 32 (s.gbr.toNat + d.toNat), 0)
  | .movWLoadGbr d => some (.word, BitVec.ofNat 32 (s.gbr.toNat + 2 * d.toNat), 0)
  | .movLLoadGbr d => some (.long, BitVec.ofNat 32 (s.gbr.toNat + 4 * d.toNat), 0)
  | _ => none

/-- The loads with post-increment: width, address register, destination
(40_data_transfer.md R168 to R170). -/
def popOf : Instr → Option (Size × Reg × Reg)
  | .movBPostInc m n => some (.byte, m, n)
  | .movWPostInc m n => some (.word, m, n)
  | .movLPostInc m n => some (.long, m, n)
  | _ => none

/-- The stores without decrement: width, effective address, stored register's value
(40_data_transfer.md R159 to R161, R171 to R173, R177 to R179, R183 to R185). -/
def storeOf (s : State) : Instr → Option (Size × Word × Word)
  | .movBStore m n => some (.byte, s.reg n, s.reg m)
  | .movWStore m n => some (.word, s.reg n, s.reg m)
  | .movLStore m n => some (.long, s.reg n, s.reg m)
  | .movBStoreDisp d n => some (.byte, BitVec.ofNat 32 ((s.reg n).toNat + d.toNat), s.reg 0)
  | .movWStoreDisp d n => some (.word, BitVec.ofNat 32 ((s.reg n).toNat + 2 * d.toNat), s.reg 0)
  | .movLStoreDisp m d n => some (.long, BitVec.ofNat 32 ((s.reg n).toNat + 4 * d.toNat), s.reg m)
  | .movBStoreIdx m n => some (.byte, BitVec.ofNat 32 ((s.reg n).toNat + (s.reg 0).toNat), s.reg m)
  | .movWStoreIdx m n => some (.word, BitVec.ofNat 32 ((s.reg n).toNat + (s.reg 0).toNat), s.reg m)
  | .movLStoreIdx m n => some (.long, BitVec.ofNat 32 ((s.reg n).toNat + (s.reg 0).toNat), s.reg m)
  | .movBStoreGbr d => some (.byte, BitVec.ofNat 32 (s.gbr.toNat + d.toNat), s.reg 0)
  | .movWStoreGbr d => some (.word, BitVec.ofNat 32 (s.gbr.toNat + 2 * d.toNat), s.reg 0)
  | .movLStoreGbr d => some (.long, BitVec.ofNat 32 (s.gbr.toNat + 4 * d.toNat), s.reg 0)
  | _ => none

/-- The stores with pre-decrement: width, address register, stored value
(40_data_transfer.md R165 to R167, 45_system.md R333 to R335, R339 to R341). -/
def pushOf (s : State) : Instr → Option (Size × Reg × Word)
  | .movBPreDec m n => some (.byte, n, s.reg m)
  | .movWPreDec m n => some (.word, n, s.reg m)
  | .movLPreDec m n => some (.long, n, s.reg m)
  | .stcLSr n => some (.long, n, s.srWord)
  | .stcLGbr n => some (.long, n, s.gbr)
  | .stcLVbr n => some (.long, n, s.vbr)
  | .stsLMach n => some (.long, n, s.machValue)
  | .stsLMacl n => some (.long, n, s.macl)
  | .stsLPr n => some (.long, n, s.pr)
  | _ => none

/-- The address a pre-decrement stores to. -/
def decremented (z : Size) (a : Word) : Word := BitVec.ofInt 32 ((a.toNat : Int) - z.bytes)

/-- An address register after a post-increment. -/
def incremented (z : Size) (a : Word) : Word := BitVec.ofNat 32 (a.toNat + z.bytes)

/-- The byte read-modify-write forms: effective address, the byte written, and T
(42_logic.md R253, R257, R258, R264). -/
def modifyOf (s : State) : Instr → Option (Word × (Byte → Byte) × (Byte → Bool))
  | .andB imm => some (BitVec.ofNat 32 (s.gbr.toNat + (s.reg 0).toNat), (· &&& imm), fun _ => s.sr.t)
  | .orB imm => some (BitVec.ofNat 32 (s.gbr.toNat + (s.reg 0).toNat), (· ||| imm), fun _ => s.sr.t)
  | .xorB imm => some (BitVec.ofNat 32 (s.gbr.toNat + (s.reg 0).toNat), (· ^^^ imm), fun _ => s.sr.t)
  | .tas n => some (s.reg n, (· ||| 0x80), fun b => decide (b = 0))
  | _ => none

/-- The first access of every form that can meet a misaligned address: width and address. -/
def accessOf (s : State) (i : Instr) : Option (Size × Word) :=
  match loadOf s i, popOf i, storeOf s i, pushOf s i with
  | some (z, a, _), _, _, _ => some (z, a)
  | none, some (z, m, _), _, _ => some (z, s.reg m)
  | none, none, some (z, a, _), _ => some (z, a)
  | none, none, none, some (z, n, _) => some (z, decremented z (s.reg n))
  | none, none, none, none =>
    match i with
    | .ldcLSr m => some (.long, s.reg m)
    | .ldcLGbr m => some (.long, s.reg m)
    | .ldcLVbr m => some (.long, s.reg m)
    | .ldsLMach m => some (.long, s.reg m)
    | .ldsLMacl m => some (.long, s.reg m)
    | .ldsLPr m => some (.long, s.reg m)
    | .macL _ n => some (.long, s.reg n)
    | .macW _ n => some (.word, s.reg n)
    | .rte => some (.long, s.reg 15)
    | _ => none

/-! ### Sets of forms -/

/-- The delay-slot-illegal forms (30_encoding.md R133). -/
def changesPc : Instr → Bool
  | .bra _ => true
  | .bsr _ => true
  | .braf _ => true
  | .bsrf _ => true
  | .jmp _ => true
  | .jsr _ => true
  | .rts => true
  | .rte => true
  | .bt _ => true
  | .bf _ => true
  | .btS _ => true
  | .bfS _ => true
  | .trapa _ => true
  | _ => false

/-- The delayed-branch forms (30_encoding.md R135). -/
def delayedForm : Instr → Bool
  | .bra _ => true
  | .bsr _ => true
  | .braf _ => true
  | .bsrf _ => true
  | .jmp _ => true
  | .jsr _ => true
  | .rts => true
  | .rte => true
  | .btS _ => true
  | .bfS _ => true
  | _ => false

/-- The SH-2-only forms (30_encoding.md R129). -/
def sh2Form : Instr → Bool
  | .bfS _ => true
  | .btS _ => true
  | .braf _ => true
  | .bsrf _ => true
  | .dmulsL _ _ => true
  | .dmuluL _ _ => true
  | .dt _ => true
  | .macL _ _ => true
  | .mulL _ _ => true
  | _ => false

/-- The forms that load SR as a whole: LDC Rm,SR, LDC.L @Rm+,SR and RTE. -/
def loadsSr : Instr → Bool
  | .ldcSr _ => true
  | .ldcLSr _ => true
  | .rte => true
  | _ => false

/-- The forms that write T (10_state.md R36). -/
def writesT : Instr → Bool
  | .clrt => true
  | .sett => true
  | .cmpEqImm _ => true
  | .cmpEq _ _ => true
  | .cmpHs _ _ => true
  | .cmpGe _ _ => true
  | .cmpHi _ _ => true
  | .cmpGt _ _ => true
  | .cmpPz _ => true
  | .cmpPl _ => true
  | .cmpStr _ _ => true
  | .tst _ _ => true
  | .tstImm _ => true
  | .tstB _ => true
  | .tas _ => true
  | .addc _ _ => true
  | .addv _ _ => true
  | .subc _ _ => true
  | .subv _ _ => true
  | .negc _ _ => true
  | .div0s _ _ => true
  | .div0u => true
  | .div1 _ _ => true
  | .dt _ => true
  | .rotl _ => true
  | .rotr _ => true
  | .rotcl _ => true
  | .rotcr _ => true
  | .shal _ => true
  | .shar _ => true
  | .shll _ => true
  | .shlr _ => true
  | i => loadsSr i

/-- The forms that write MACH (10_state.md R34; the others of its list write MACL alone). -/
def writesMach : Instr → Bool
  | .clrmac => true
  | .ldsMach _ => true
  | .ldsLMach _ => true
  | .macW _ _ => true
  | .macL _ _ => true
  | .dmulsL _ _ => true
  | .dmuluL _ _ => true
  | _ => false

/-- The forms that write MACL (10_state.md R34). -/
def writesMacl : Instr → Bool
  | .clrmac => true
  | .ldsMacl _ => true
  | .ldsLMacl _ => true
  | .macW _ _ => true
  | .macL _ _ => true
  | .mulL _ _ => true
  | .mulsW _ _ => true
  | .muluW _ _ => true
  | .dmulsL _ _ => true
  | .dmuluL _ _ => true
  | _ => false

/-- The forms that write PR (10_state.md R33). -/
def writesPr : Instr → Bool
  | .bsr _ => true
  | .bsrf _ => true
  | .jsr _ => true
  | .ldsPr _ => true
  | .ldsLPr _ => true
  | _ => false

/-- The forms that write GBR (10_state.md R40). -/
def writesGbr : Instr → Bool
  | .ldcGbr _ => true
  | .ldcLGbr _ => true
  | _ => false

/-- The forms that write VBR (10_state.md R41). -/
def writesVbr : Instr → Bool
  | .ldcVbr _ => true
  | .ldcLVbr _ => true
  | _ => false

/-! ### The parts of a cycle -/

/-- The state after the decrements of a cycle (70_reset_and_hazards.md R500). -/
def waited (s : State) : State :=
  { s with fetchWait := s.fetchWait - 1, execWait := s.execWait - 1 }

/-- The state after the fetch of the word at PC (60_exceptions.md R350). -/
def fetched (s : State) : State :=
  { s with plat := (s.plat.read .word s.pc).2
           fetchWait := s.plat.cost s.pc
           pipe := { instruction := (s.plat.read .word s.pc).1.setWidth 16, src := s.pc, valid := true }
           pc := s.pc + 2 }

/-- The answer of a cycle whose CPU part left `t`: the scheduler, the environment and the clock follow,
and a fault raised there is the answer (log entry 11); so is a firing pass that never ends
(log entry 14). -/
def closing (t : State) : Answer :=
  match endCycle t with
  | none => .fault .endless
  | some u =>
    match u.fault with
    | none => .next u
    | some r => .fault (.raised r u)

/-- The answer of a cycle whose CPU part ended in the fault `r`, leaving `t`: the state at the end of the
cycle goes with it (log entry 11). -/
def stopping (r : FaultRecord) (t : State) : Answer :=
  match endCycle t with
  | none => .fault .endless
  | some u => .fault (.raised r u)

/-- The next cycle is a ready point of a CPU that has not faulted (70_reset_and_hazards.md R500). -/
def AtReadyPoint (s : State) : Prop := s.fault = none ∧ s.fetchWait ≤ 1 ∧ s.execWait ≤ 1

/-- A request passes the acceptance test (60_exceptions.md R355). -/
def Acceptable (s : State) (r : IrqRequest) : Prop :=
  r.priority > s.sr.i.toNat ∧ s.pipe.valid = true ∧ s.inDelaySlot = false ∧ s.inNoIntSlot = false

/-- An address error is due (60_exceptions.md R362 (2)). -/
def AddressErrorDue (s : State) : Prop :=
  s.pendingAddressError = true ∧ s.pipe.valid = true ∧ s.inDelaySlot = false

/-- A ready point takes no exception: no held request passes the test, and no address error is due
(60_exceptions.md R350, R355, R362). -/
def NothingTaken (s : State) : Prop :=
  (∀ r, s.pending = some r → ¬ Acceptable s r) ∧ ¬ AddressErrorDue s

/-- The state in which the fetched word of this ready point executes (60_exceptions.md R350). -/
def executing (s : State) : State :=
  { fetched (waited s) with curAddr := s.pipe.src, curWord := s.pipe.instruction }

/-- The word in the pipeline decodes to an instruction of the machine. -/
def Holding (s : State) (i : Instr) : Prop :=
  decode [s.pipe.instruction.extractLsb' 8 8, s.pipe.instruction.extractLsb' 0 8] = .ok (i, []) ∧
    i.wellFormed s.plat.params.sh2Extensions = true

/-- `EXEC_LATENCY(op) - 1` (70_reset_and_hazards.md R503). -/
def latencyOf (p : Params) (i : Instr) : Nat := (p.execLatency.lookup i.matchWord).getD 1 - 1

/-- The answer of a cycle that executes `i` in `s`: its `exec`, then its latency, the scheduler, the
environment and the clock. -/
def executed (i : Instr) (s : State) : Answer :=
  match exec i s with
  | .next t => closing (t.delay (latencyOf s.plat.params i))
  | .fault (.raised r t) => stopping r t
  | .fault .endless => .fault .endless
  | .refused r => .refused r

/-- No DMA channel is enabled. -/
def NoDma (p : Platform) : Prop := ∀ c, (p.chan c).chcr.getLsbD 0 = false

/-- The unit size of a CHCR value (60_exceptions.md R417). -/
def unitOf (chcr : Half) : Size := if chcr.getLsbD 3 then .word else .byte

/-- The change of an address per unit, for a step code other than 0b11 (60_exceptions.md R416). -/
def stepOf (z : Size) (code : BitVec 2) : Int :=
  if code = 1 then z.bytes else if code = 2 then -z.bytes else 0

/-- The source address of a channel after `k` units (60_exceptions.md R423). -/
def sourceAt (ch : DmaChannel) (k : Nat) : Word :=
  BitVec.ofInt 32 ((ch.sar.toNat : Int) + k * stepOf (unitOf ch.chcr) (ch.chcr.extractLsb' 12 2))

/-- The destination address of a channel after `k` units (60_exceptions.md R423). -/
def targetAt (ch : DmaChannel) (k : Nat) : Word :=
  BitVec.ofInt 32 ((ch.dar.toNat : Int) + k * stepOf (unitOf ch.chcr) (ch.chcr.extractLsb' 14 2))

/-- Both steps of a channel have a code the specification gives (60_exceptions.md R416). -/
def StepsGiven (ch : DmaChannel) : Prop :=
  ch.chcr.extractLsb' 12 2 ≠ 3 ∧ ch.chcr.extractLsb' 14 2 ≠ 3

/-- The units of a channel's whole transfer lie aligned in buffers, and the destinations in pages that may
be written. -/
def BetweenBuffers (p : Platform) (ch : DmaChannel) : Prop :=
  Aligned (unitOf ch.chcr) ch.sar ∧ Aligned (unitOf ch.chcr) ch.dar ∧
    ∀ k, k < ch.count.toNat →
      (∃ e, p.target (physical (sourceAt ch k)) = .buffer e) ∧ Writable p (targetAt ch k)

/-- Two units at these places share no byte. -/
def Apart (z : Size) (x y : Nat) : Prop := x + z.bytes ≤ y ∨ y + z.bytes ≤ x

/-- What the whole transfer of a channel leaves of the platform, the channel aside: only the bytes of the
destinations have changed, and where no source unit meets a destination, each unit that no later one
overwrites is a copy of its source. -/
def Transferred (p q : Platform) (ch : DmaChannel) : Prop :=
  let z := unitOf ch.chcr
  let n := ch.count.toNat
  let src := fun k => place p (sourceAt ch k)
  let dst := fun k => place p (targetAt ch k)
  { q with mem := p.mem, dma := p.dma } = p ∧
    (∀ x, (∀ k, k < n → x < dst k ∨ dst k + z.bytes ≤ x) → byteAt q x = byteAt p x) ∧
    ((∀ j k, j < n → k < n → Apart z (src j) (dst k)) →
      ∀ k, k < n → (∀ j, k < j → j < n → Apart z (dst j) (dst k)) →
        ∀ i, i < z.bytes → byteAt q (dst k + i) = byteAt p (src k + i))

/-- What an interrupt controller register keeps of a value (60_exceptions.md R371, R372). -/
def intcKept (r : IntcReg) (n : Nat) : Nat :=
  match r with
  | .ipre => n % 65536 / 16 * 16
  | .icr => n % 512
  | _ => n % 65536

/-- The byte of a register: bit `k` of the value written. -/
def low8 (v : Word) : Byte := v.setWidth 8

/-- The bytes of the on-chip block that belong to a register (60_exceptions.md R450). -/
def assigned (off : Nat) : Prop :=
  (0x0C0 ≤ off ∧ off < 0x0D0 ∧ off % 8 < 6) ∨
  (0x140 ≤ off ∧ off < 0x180 ∧
    (off % 16 < 8 ∨ off / 2 = 0xA4 ∨ off % 16 / 2 = 5 ∨ off % 16 / 2 = 7)) ∨
  (0x184 ≤ off ∧ off < 0x190)

/-- A value read is made of the next `n` draws, the first the most significant byte
(60_exceptions.md R452, R461). -/
def Drawn (p : Platform) (n : Nat) (v : Word) : Prop :=
  v.toNat < 256 ^ n ∧
    ∀ k, k < n → v.toNat / 256 ^ (n - 1 - k) % 256 = (Config.freeByte (p.draws + k)).toNat

/-- A port that has loaded its shifter (60_exceptions.md R438). -/
def loaded (c : SciPort) : SciPort :=
  { c with shiftReg := c.tdr, txEmpty := true, bitsLeft := 8, tend := false, busy := true }

/-- A bit clock of a port queued `delay` CPU cycles from now (60_exceptions.md R402). -/
def queued (p : Platform) (delay : Int) (port : Port) : Platform :=
  { p with events := p.events ++ [{ domain := 0, target := (p.now : Int) + delay, port := port }] }

/-- The bit period (60_exceptions.md R441). -/
def bitPeriod (c : SciPort) : Nat := 32 * 4 ^ (c.smr.toNat % 4) * (c.brr.toNat + 1)

end Sys2Proof.Claims

open Sys2Proof Sys2Proof.Machine Sys2Proof.Claims

/-! ### Encoding -/

/-- Decoding the bytes of any instruction gives it back, with every operand at every value the encoding
admits, and leaves the bytes after it (30_encoding.md R120 to R122). -/
def Obligations.DecodeEncodeRoundTrip : Prop :=
  ∀ (i : Instr) (rest : List Byte), decode (encode i ++ rest) = .ok (i, rest)

/-- A word selects the row whose mask and match it meets, and it meets no other row's: what it decodes to
lies in every row it meets, and it encodes back to the word (30_encoding.md R127). -/
def Obligations.WordSelectsItsRow : Prop :=
  (∀ (w : Half) (i : Instr), decodeWord w = some i →
    w &&& i.maskWord = i.matchWord ∧ encodeWord i = w) ∧
  (∀ (w : Half) (j : Instr), w &&& j.maskWord = j.matchWord →
    ∃ i, decodeWord w = some i ∧ i.maskWord = j.maskWord ∧ i.matchWord = j.matchWord)

/-- Words written out from the patterns of the opcode table decode to the forms they stand for, and two
unassigned words are refused (30_encoding.md R122, R127, R131). -/
def Obligations.PatternWordsDecode : Prop :=
  decode [0b01100010#8, 0b00010011#8] = .ok (.mov 1 2, []) ∧
  decode [0b11100011#8, 0b11111111#8] = .ok (.movImm 0xFF 3, []) ∧
  decode [0b00010010#8, 0b00011111#8] = .ok (.movLStoreDisp 1 15 2, []) ∧
  decode [0b00110010#8, 0b00011100#8] = .ok (.add 1 2, []) ∧
  decode [0b00110010#8, 0b00010100#8] = .ok (.div1 1 2, []) ∧
  decode [0b11001001#8, 0b00001111#8] = .ok (.andImm 0x0F, []) ∧
  decode [0b01000011#8, 0b00100100#8] = .ok (.rotcl 3, []) ∧
  decode [0b10101111#8, 0b11111110#8] = .ok (.bra 0xFFE, []) ∧
  decode [0b10001011#8, 0b00000010#8] = .ok (.bf 2, []) ∧
  decode [0b11000011#8, 0b00100000#8] = .ok (.trapa 0x20, []) ∧
  decode [0b01000101#8, 0b00001110#8] = .ok (.ldcSr 5, []) ∧
  decode [0b00000000#8, 0b00101011#8] = .ok (.rte, []) ∧
  decode [0b00000000#8, 0b00000000#8] = .error (.illegal 0x0000) ∧
  decode [0b11110000#8, 0b00000000#8] = .error (.illegal 0xF000)

/-- The nine SH-2-only forms decode only when `SH2_EXTENSIONS` is true, and every other form decodes either
way. Executing a word that meets no row, or an SH-2-only row when the parameter is false, ends the CPU in
the fault IllegalInstruction, which records the word and the address it executes at and changes nothing
else (30_encoding.md R129, R131, 60_exceptions.md R365). -/
def Obligations.IllegalWordsFault : Prop :=
  (∀ i : Instr, decodeFor true (encodeWord i) = some i ∧
      decodeFor false (encodeWord i) = if sh2Form i then none else some i) ∧
  (∀ (w : Half) (s : State),
      ((∀ j : Instr, w &&& j.maskWord ≠ j.matchWord) ∨
        (s.plat.params.sh2Extensions = false ∧
          ∃ j : Instr, sh2Form j = true ∧ w &&& j.maskWord = j.matchWord)) →
      executeWord w s =
        .fault (.raised { reason := .illegalInstruction w, at_ := s.curAddr }
          { s with fault := some { reason := .illegalInstruction w, at_ := s.curAddr } }))

/-! ### Reset and the invariant -/

/-- Power-on reset of a launch whose map has a buffer at address 0: PC and R15 are the longs at addresses 0
and 4, VBR is 0, I is 15, SR's reserved bits read 0, the pipeline, the slots, the pending request, the
sleep, the fault and the waits are clear, the scheduler and the output log are empty, the hooks are those
the host installed, the last one at an address, CHCR, DMAOR and the interrupt controller are 0, TCR lies
in 1 to 0x10000, only AUTO is asserted, and both ports hold their reset values
(70_reset_and_hazards.md R480, R481, 60_exceptions.md R411, R430, R453, R462). -/
def Obligations.ResetValues : Prop :=
  ∀ l : Launch, (∃ e, (Platform.powerOn l).target 0 = .buffer e) →
    let s := State.powerOn l
    (s.pc = (s.plat.read .long 0).1 ∧ s.reg 15 = (s.plat.read .long 4).1 ∧ s.vbr = 0 ∧
      s.srWord &&& 0xFFFFFCFC = 0x000000F0) ∧
    (s.pipe.valid = false ∧ s.inDelaySlot = false ∧ s.inNoIntSlot = false ∧ s.pending = none ∧
      s.pendingAddressError = false ∧ s.sleeping = false ∧ s.fault = none ∧ s.fetchWait = 0 ∧
      s.execWait = 0) ∧
    (s.plat.now = 0 ∧ s.plat.events = [] ∧ s.plat.outLog = [] ∧
      ∀ a, hookAt a s.plat.hooks = l.hooks.reverse.find? (fun h => h.address == a)) ∧
    (∀ c, (s.plat.chan c).chcr = 0 ∧ (s.plat.chan c).active = false ∧
      1 ≤ (s.plat.chan c).count.toNat ∧ (s.plat.chan c).count.toNat ≤ 0x10000) ∧
    (s.plat.dmaor = 0 ∧ ∀ r, s.plat.intc.get r = 0) ∧
    (∀ l, s.plat.asserted l = decide (l = .auto)) ∧
    (∀ port, s.plat.onchipValue (.smr port) = 0x00 ∧ s.plat.onchipValue (.brr port) = 0xFF ∧
      s.plat.onchipValue (.scr port) = 0x00 ∧ s.plat.onchipValue (.tdr port) = 0xFF ∧
      s.plat.onchipValue (.ssr port) = 0x84 ∧ s.plat.onchipValue (.rdr port) = 0x00 ∧
      (s.plat.sci port).busy = false ∧ (s.plat.sci port).bitsLeft = 0)

/-- The reset state, of a machine with nothing loaded (log entry 1), meets the invariant of Safety.lean,
and so does the reset of every launch (60_exceptions.md R411, R430, R453). -/
def Obligations.ResetMeetsInvariant : Prop :=
  State.reset.Inv ∧ ∀ l : Launch, (State.powerOn l).Inv

/-- Every cycle keeps the invariant of Safety.lean: the buffers stay in canonical form, no DMA channel
ever holds an interrupt enable or a reserved step code, no port is ever synchronous and no receiver
ever active, the reserved bits of IPRE and ICR stay 0, MACH keeps only its bits, and no two hooks stand at one
address. The canonical form is the model's own; the rest is R371, R372, R410, R415, R419, R431, R436,
R437 and R462 of 60_exceptions.md and R34 of 10_state.md. -/
def Obligations.StepKeepsInvariant : Prop :=
  ∀ s s' : State, s.Inv → step s = .next s' → s'.Inv

/-- Between cycles, outside a delay slot, a valid pipeline entry was fetched from PC - 2
(60_exceptions.md R351 (a), a consequence the specification marks as derived). A hook's handler may
change PC and the pipeline, so none is installed. -/
def Obligations.PipelineFollowsPc : Prop :=
  ∀ s s' : State, s.plat.hooks = [] →
    (s.pipe.valid = true → s.inDelaySlot = false → s.pipe.src = s.pc - 2) →
    step s = .next s' →
    (s'.pipe.valid = true → s'.inDelaySlot = false → s'.pipe.src = s'.pc - 2)

/-! ### The step -/

/-- A cycle that is a ready point runs the prefetched word: when it decodes to an instruction of the
machine and no hook stands at its address, the step is that instruction's `exec` in the state after the
fetch of the word at PC, followed by its latency, the scheduler, the environment and the clock
(60_exceptions.md R350, R404, 70_reset_and_hazards.md R500, R503). That one step is one cycle, and what a
fault answers, are the model's choices (log entries 21 and 11); so is that an instruction abandoned under
`address_error` is charged its latency (log entry 19). -/
def Obligations.StepRunsTheDecodedInstruction : Prop :=
  ∀ (s : State) (i : Instr),
    AtReadyPoint s → s.sleeping = false → NothingTaken s → s.pc.toNat % 2 = 0 →
    s.pipe.valid = true → hookAt s.pipe.src s.plat.hooks = none → Holding s i →
    step s = executed i (executing s)

/-- A ready point with an invalid pipeline fetches and executes nothing: the word at PC, the two bytes
there when a buffer is mapped, enters the pipeline with its address, and PC moves past it. An odd PC
faults at the fetch, under either value of `MISALIGNED_POLICY`, before the prefetched word executes
(60_exceptions.md R350, R365, 20_memory.md R76, R79, 70_reset_and_hazards.md R500). That one step is one
cycle, so that the scheduler, the environment and the clock follow, and that the answer of a fault carries
the state at the end of its cycle, are the model's choices (log entries 21 and 11). -/
def Obligations.FetchAtPc : Prop :=
  ∀ s : State, AtReadyPoint s → s.sleeping = false → NothingTaken s →
    (s.pc.toNat % 2 = 0 → s.pipe.valid = false →
      step s = closing (fetched (waited s)) ∧
      (∀ e, s.plat.target (physical s.pc) = .buffer e →
        (fetched (waited s)).pipe =
          { instruction := byteAt s.plat (place s.plat s.pc) ++ byteAt s.plat (place s.plat s.pc + 1)
            src := s.pc, valid := true })) ∧
    (s.pc.toNat % 2 = 1 →
      step s =
        stopping { reason := .misaligned s.pc 2, at_ := s.pc }
          { waited s with fault := some { reason := .misaligned s.pc 2, at_ := s.pc } })

/-- A held request, when no address error is due before it, is dispatched at a ready point exactly when
its priority is above the mask, the pipeline is valid and no slot is open, and it wakes a sleeping CPU;
otherwise it stays held and nothing changes (60_exceptions.md R355). -/
def Obligations.RequestAcceptance : Prop :=
  ∀ (s : State) (r : IrqRequest), s.pending = some r →
    (s.sleeping = false → ¬ AddressErrorDue s) →
    (Acceptable s r →
      acceptStage s =
        enterException r.vector (some r.priority) { s with pending := none, sleeping := false }) ∧
    (¬ Acceptable s r → acceptStage s = .ok () s)

/-- A sleeping CPU makes no fetch and no execution at a ready point until a held request is accepted: its
own part of the cycle is the decrements alone, and the scheduler, the environment, which may make a
request pending, and the clock follow (60_exceptions.md R350, R358, R409, 70_reset_and_hazards.md R500).
That one step is one cycle, and that a fault raised in the scheduler's part is the answer, are the
model's choices (log entries 21 and 11). -/
def Obligations.SleepingCpuWaits : Prop :=
  ∀ s : State, AtReadyPoint s → s.sleeping = true →
    (∀ r, s.pending = some r → ¬ Acceptable s r) →
    step s = closing (waited s)

/-- A due address error is dispatched at a ready point before any held request is tested, whatever the
mask and the no-interrupt slot: it is no longer pending, and the entry is that of `ADDRESS_ERROR_VECTOR`
with the mask kept. With neither it nor an acceptable request the acceptance does nothing. After a
dispatch, of an address error or of a request, which wakes a sleeping CPU, the step fetches the handler's
first word and executes nothing; an odd handler address faults at that fetch, with the entry done; and a
fault of the entry ends it (60_exceptions.md R350, R358, R359, R362, R365, 70_reset_and_hazards.md R500).
That one step is one cycle, and what a fault answers, are the model's choices (log entries 21 and 11); so
is that a faulted entry leaves its request taken and the sleep ended (log entry 15). -/
def Obligations.DispatchThenFetch : Prop :=
  (∀ s : State, s.sleeping = false → AddressErrorDue s →
    acceptStage s =
      enterException s.plat.params.addressErrorVector none { s with pendingAddressError := false }) ∧
  (∀ s : State, s.pending = none → (s.sleeping = false → ¬ AddressErrorDue s) →
    acceptStage s = .ok () s) ∧
  (∀ (s u : State) (v : BitVec 8) (m : Option Nat), AtReadyPoint s →
    (s.sleeping = false ∧ AddressErrorDue s ∧ v = s.plat.params.addressErrorVector ∧ m = none ∧
        u = { waited s with pendingAddressError := false } ∨
      (s.sleeping = false → ¬ AddressErrorDue s) ∧
        ∃ r, s.pending = some r ∧ Acceptable s r ∧ v = r.vector ∧ m = some r.priority ∧
          u = { waited s with pending := none, sleeping := false }) →
    (∀ t, enterException v m u = .ok () t →
      (t.pc.toNat % 2 = 0 → step s = closing (fetched t)) ∧
      (t.pc.toNat % 2 = 1 →
        step s =
          stopping { reason := .misaligned t.pc 2, at_ := t.pc }
            { t with fault := some { reason := .misaligned t.pc 2, at_ := t.pc } })) ∧
    (∀ r t, enterException v m u = .raise r t → step s = stopping r { t with fault := some r }))

/-- A hook at the address of the word about to execute, in a slot or not: its handler is called on the
state after the fetch, with that address, and its moves are made in their order. If it suppresses the
instruction, nothing executes, any slot closes and none opens; if not, the instruction executes in the
state the handler left, and a word that is no instruction faults there (30_encoding.md R131,
60_exceptions.md R350, R353, R365, R462, R463, 70_reset_and_hazards.md R503). What a handler does is a free
value (log entry 8), so that neither answer can be shown to occur; that an instruction executes after a
handler that set a fault, and that its own fault then replaces that one, are the model's choices (log
entry 8); so are that one step is one cycle, and what a fault answers (log entries 21 and 11), and that a
suppressed word that is no instruction adds no latency (log entry 20). -/
def Obligations.HookedInstruction : Prop :=
  ∀ (s : State) (h : Hook),
    AtReadyPoint s → s.sleeping = false → NothingTaken s → s.pc.toNat % 2 = 0 →
    s.pipe.valid = true → hookAt s.pipe.src s.plat.hooks = some h →
    let reply := Config.hookReply h.handler s.pipe.src (executing s)
    let called : State :=
      { executing s with plat := { (executing s).plat with draws := (executing s).plat.draws + 1 } }
    let u := reply.actions.foldl applyHostAction called
    h.address = s.pipe.src ∧
    (reply.suppress = true →
      (∀ i, Holding s i →
        step s = closing
          (State.delay { u with inDelaySlot := false, inNoIntSlot := false }
            (latencyOf s.plat.params i))) ∧
      ((∀ i, ¬ Holding s i) →
        step s = closing { u with inDelaySlot := false, inNoIntSlot := false })) ∧
    (reply.suppress = false →
      (∀ i, Holding s i → step s = executed i u) ∧
      ((∀ i, ¬ Holding s i) →
        let r : FaultRecord := { reason := .illegalInstruction s.pipe.instruction, at_ := s.pipe.src }
        step s = stopping r { u with fault := some r }))

/-- A faulted CPU takes no further step: a cycle changes nothing of the CPU, and time goes on
(10_state.md R46, 60_exceptions.md R354, R409). That a step from a faulted state answers a next state,
unless the scheduler's part never ends, is the model's choice (log entries 11 and 14). -/
def Obligations.FaultedCpuStays : Prop :=
  ∀ s : State, s.fault.isSome = true →
    (∃ t, step s = .next t ∧ CpuFrame [] s t ∧ t.plat.now = s.plat.now + 1) ∨
    (fireDue s.plat = none ∧ step s = .fault .endless)

/-- `assert_irq` fills an empty slot; a held request is replaced under `overwrite`, and under
`keep_higher` when the new priority is at least the held one's; nothing else changes
(60_exceptions.md R357, R367). -/
def Obligations.AssertIrqPolicy : Prop :=
  ∀ (s : State) (new : IrqRequest), s.fault = none →
    assertIrq new s = { s with pending := (assertIrq new s).pending } ∧
    (s.pending = none → (assertIrq new s).pending = some new) ∧
    (∀ held, s.pending = some held →
      (s.plat.params.irqSlotPolicy = .overwrite → (assertIrq new s).pending = some new) ∧
      (s.plat.params.irqSlotPolicy = .keepHigher →
        (assertIrq new s).pending =
          if new.priority ≥ held.priority then some new else some held))

/-- The environment's schedule. A move that is not yet due stays for later; the due ones are made in their
order, each once. An interrupt of `ENV_IRQ` is asserted with its vector and, for IRQk, the IPR field of
the moment, for NMI 16; any other changes nothing. `add_hook` and `remove_hook` change the handler at
their own address alone (60_exceptions.md R368, R371, R460, R462, 70_reset_and_hazards.md R500, R511). The
schedule as data is the model's form of it (log entry 9). -/
def Obligations.EnvironmentSchedule : Prop :=
  (∀ s : State, s.plat.env = [] → environmentStage s = s) ∧
  (∀ (s : State) (at_ : Nat) (move : EnvAction) (rest : List (Nat × EnvAction)),
    s.plat.env = (at_, move) :: rest →
    let others : State := { s with plat := { s.plat with env := rest } }
    (at_ ≤ s.plat.now → environmentStage s = environmentStage (applyEnvAction others move)) ∧
    (s.plat.now < at_ →
      environmentStage s =
        { environmentStage others with
          plat := { (environmentStage others).plat with
                    env := (at_, move) :: (environmentStage others).plat.env } })) ∧
  (∀ (s : State) (source : EnvIrq),
    applyEnvAction s (.raise source) =
      if source ∈ s.plat.params.envIrq then
        assertIrq
          (match source with
            | .irq k =>
              { vector := s.plat.params.irqVectors[k.val]
                priority := (if k.val < 4 then s.plat.intc.ipra.toNat / 16 ^ (3 - k.val)
                             else s.plat.intc.iprb.toNat / 16 ^ (7 - k.val)) % 16 }
            | .nmi => { vector := s.plat.params.nmiVector, priority := 16 }) s
      else s) ∧
  (∀ (s : State) (h : Hook) (a b : Word),
    hookAt b (applyEnvAction s (.addHook h)).plat.hooks =
      (if b = h.address then some h else hookAt b s.plat.hooks) ∧
    hookAt b (applyEnvAction s (.removeHook a)).plat.hooks =
      (if b = a then none else hookAt b s.plat.hooks))

/-! ### Exceptions -/

/-- Taking an exception with an aligned stack in memory that may be written and an aligned vector
address: SR goes to R15 - 4 and PC - 2 to R15 - 8, R15 ends 8 lower, PC is the vector read after the
pushes (which draw no byte), the pipeline is invalid, and the mask becomes the priority clamped to 15, or
stays for `keep`; nothing else changes (60_exceptions.md R360). -/
def Obligations.ExceptionEntry : Prop :=
  ∀ (s : State) (v : BitVec 8) (m : Option Nat),
    let sp := s.reg 15
    let at1 := decremented .long sp
    let at2 := decremented .long at1
    let vector := BitVec.ofNat 32 (s.vbr.toNat + 4 * v.toNat)
    Canonical s.plat → Aligned .long sp → Aligned .long vector →
    Writable s.plat at1 → Writable s.plat at2 →
    ∃ t, enterException v m s = .ok () t ∧
      (place s.plat at2 + 4 ≤ place s.plat at1 ∨ place s.plat at1 + 4 ≤ place s.plat at2) ∧
      Holds t.plat (place s.plat at1) 4 s.srWord ∧
      Holds t.plat (place s.plat at2) 4 (BitVec.ofInt 32 ((s.pc.toNat : Int) - 2)) ∧
      t.reg 15 = at2 ∧
      t.pc = (Platform.read { t.plat with draws := s.plat.draws } .long vector).1 ∧
      t.pipe = { s.pipe with valid := false } ∧
      (t.sr.i.toNat = match m with
        | none => s.sr.i.toNat
        | some p => if p < 15 then p else 15) ∧
      (∀ x, x ∉ [Part.reg 15, .pc, .pipeline, .mask, .execWait, .draws] →
        (∀ a, x = .byte a → (a < place s.plat at1 ∨ place s.plat at1 + 4 ≤ a) ∧
          (a < place s.plat at2 ∨ place s.plat at2 + 4 ≤ a)) → x.kept s t)

/-- The faults of an entry, under either value of `MISALIGNED_POLICY`: a stack pointer that is not a
multiple of 4 faults before any push; a push to a BIOS or ROM page faults; and a vector address that is
not a multiple of 4 faults after both pushes. Registers and flags keep their values, and the pushes
already made stay made (60_exceptions.md R354, R361). That the record names the address of the access,
for TRAPA's entry as well, is the model's reading of R365 (log entry 15). -/
def Obligations.EntryFaults : Prop :=
  ∀ (s : State) (v : BitVec 8) (m : Option Nat),
    let at1 := decremented .long (s.reg 15)
    let at2 := decremented .long at1
    let vector := BitVec.ofNat 32 (s.vbr.toNat + 4 * v.toNat)
    (¬ Aligned .long (s.reg 15) →
      enterException v m s = .raise { reason := .misaligned at1 4, at_ := at1 } s) ∧
    (Aligned .long (s.reg 15) → ReadOnly s.plat at1 →
      enterException v m s = .raise { reason := .romWrite at1, at_ := at1 } s) ∧
    (Aligned .long (s.reg 15) → Canonical s.plat → Writable s.plat at1 → ReadOnly s.plat at2 →
      ∃ t, enterException v m s = .raise { reason := .romWrite at2, at_ := at2 } t ∧
        Holds t.plat (place s.plat at1) 4 s.srWord ∧
        StoreFrame [.execWait] (place s.plat at1) 4 s t) ∧
    (Aligned .long (s.reg 15) → Canonical s.plat → Writable s.plat at1 → Writable s.plat at2 →
      ¬ Aligned .long vector →
      ∃ t, enterException v m s = .raise { reason := .misaligned vector 4, at_ := vector } t ∧
        Holds t.plat (place s.plat at1) 4 s.srWord ∧
        Holds t.plat (place s.plat at2) 4 (BitVec.ofInt 32 ((s.pc.toNat : Int) - 2)) ∧
        (∀ x, x ≠ Part.execWait →
          (∀ a, x = .byte a → (a < place s.plat at1 ∨ place s.plat at1 + 4 ≤ a) ∧
            (a < place s.plat at2 ∨ place s.plat at2 + 4 ≤ a)) → x.kept s t))

/-- TRAPA outside a delay slot takes the exception of its immediate with the mask kept: SR and the
address after the TRAPA are pushed, and PC is the vector read (45_system.md R342). -/
def Obligations.TrapaTakesItsVector : Prop :=
  ∀ (s : State) (imm : BitVec 8),
    let sp := s.reg 15
    let at1 := decremented .long sp
    let at2 := decremented .long at1
    let vector := BitVec.ofNat 32 (s.vbr.toNat + 4 * imm.toNat)
    s.inDelaySlot = false → Canonical s.plat → Aligned .long sp → Aligned .long vector →
    Writable s.plat at1 → Writable s.plat at2 →
    ∃ t, exec (.trapa imm) s = .next t ∧
      Holds t.plat (place s.plat at1) 4 s.srWord ∧
      Holds t.plat (place s.plat at2) 4 (BitVec.ofInt 32 ((s.pc.toNat : Int) - 2)) ∧
      t.reg 15 = at2 ∧
      t.pc = (Platform.read { t.plat with draws := s.plat.draws } .long vector).1 ∧
      t.pipe = { s.pipe with valid := false } ∧ Retired (.trapa imm) false s t ∧
      (∀ x, x ∉ slots ++ [.reg 15, .pc, .pipeline, .execWait, .draws] →
        (∀ a, x = .byte a → (a < place s.plat at1 ∨ place s.plat at1 + 4 ≤ a) ∧
          (a < place s.plat at2 ∨ place s.plat at2 + 4 ≤ a)) → x.kept s t)

/-- RTE outside a delay slot with an aligned stack pointer pops PC, then SR, ends R15 8 higher, and
branches to the popped PC with a delay slot (45_system.md R327). -/
def Obligations.RteRestores : Prop :=
  ∀ s : State, s.inDelaySlot = false → Aligned .long (s.reg 15) →
    let first := s.plat.read .long (s.reg 15)
    let second := first.2.read .long (incremented .long (s.reg 15))
    Branches .rte s first.1
      [.reg 15, .flagT, .flagS, .mask, .flagQ, .flagM, .execWait, .draws]
      (fun t => t.srWord = second.1 &&& 0x000003F3 ∧
        t.reg 15 = incremented .long (incremented .long (s.reg 15)))

/-- CLRT, SETT, CLRMAC and NOP, and SLEEP: under `halt` it puts the CPU to sleep and changes nothing else;
under `spin` it branches to itself (45_system.md R312, R313, R326, R328, R329). -/
def Obligations.FormsWithoutOperands : Prop :=
  ∀ s : State,
    Completes .clrt s [.flagT] (fun t => t.sr.t = false) ∧
    Completes .sett s [.flagT] (fun t => t.sr.t = true) ∧
    Completes .clrmac s [.mach, .macl] (fun t => AccumulatorIs t 0) ∧
    Completes .nop s [] (fun _ => True) ∧
    (s.plat.params.sleepPolicy = .halt →
      Completes .sleep s [.sleeping] (fun t => t.sleeping = true)) ∧
    (s.plat.params.sleepPolicy = .spin →
      Completes .sleep s [.pc, .pipeline] (fun t =>
        t.pc = BitVec.ofInt 32 ((s.pc.toNat : Int) - 4) ∧
        t.pipe = { s.pipe with valid := false }))

/-- A PC-changing form in a delay slot ends the CPU in the fault SlotIllegal, which records the executing
word and its address, and has no effect (30_encoding.md R133). -/
def Obligations.SlotIllegalForms : Prop :=
  ∀ (i : Instr) (s : State), changesPc i = true → s.inDelaySlot = true →
    exec i s =
      .fault (.raised { reason := .slotIllegal s.curWord, at_ := s.curAddr }
        { s with fault := some { reason := .slotIllegal s.curWord, at_ := s.curAddr } })

/-! ### Whole-machine rules over every instruction -/

/-- After an executed instruction a delay slot is open only if it is a form of R135 of 30_encoding.md that
was not itself in a slot, and a no-interrupt slot exactly when its form is in `NOINT_SET`, unless it was
abandoned by a misaligned access, which leaves an address error pending and PC as it was
(60_exceptions.md R353, R362). -/
def Obligations.SlotFlagsArePulses : Prop :=
  ∀ (i : Instr) (s t : State), exec i s = .next t →
    (t.inDelaySlot = true → delayedForm i = true ∧ s.inDelaySlot = false) ∧
    (t.inNoIntSlot = true → s.plat.params.nointSet.contains i.matchWord = true) ∧
    (t.inNoIntSlot = false → s.plat.params.nointSet.contains i.matchWord = false ∨
      (t.pendingAddressError = true ∧ t.pc = s.pc))

/-- No instruction changes a flag or a control or system register but the listed forms: T the forms of
10_state.md R36, S and I the forms that load SR, Q and M those and the divide forms, M not by DIV1 (R37,
R38, R39), and PR, GBR, VBR, MACH and MACL the forms of R33, R34, R40 and R41. -/
def Obligations.OnlyListedFormsWriteFlagsAndSystemRegisters : Prop :=
  ∀ (i : Instr) (s t : State), exec i s = .next t →
    (writesT i = false → t.sr.t = s.sr.t) ∧
    (loadsSr i = false → t.sr.s = s.sr.s ∧ t.sr.i = s.sr.i) ∧
    (loadsSr i = false → i ≠ .div0u → (∀ m n, i ≠ .div0s m n) → t.sr.m = s.sr.m) ∧
    (loadsSr i = false → i ≠ .div0u → (∀ m n, i ≠ .div0s m n ∧ i ≠ .div1 m n) → t.sr.q = s.sr.q) ∧
    (writesPr i = false → t.pr = s.pr) ∧ (writesGbr i = false → t.gbr = s.gbr) ∧
    (writesVbr i = false → t.vbr = s.vbr) ∧ (writesMach i = false → t.mach = s.mach) ∧
    (writesMacl i = false → t.macl = s.macl)

/-- Only the PC-changing forms, and SLEEP under `spin`, write PC or the pipeline; and an instruction that
ends in a fault leaves every register as it was (60_exceptions.md R350, R354). -/
def Obligations.OnlyBranchesWritePc : Prop :=
  ∀ (i : Instr) (s t : State),
    (exec i s = .next t → changesPc i = false →
      (i = .sleep → s.plat.params.sleepPolicy = .halt) → t.pc = s.pc ∧ t.pipe = s.pipe) ∧
    (∀ r, exec i s = .fault (.raised r t) → t.fault = some r ∧ CpuFrame [.fault, .execWait] s t)

/-! ### Data transfer -/

/-- The register moves and the extensions complete with the value their rules give
(40_data_transfer.md R155, R158, R189 to R193, 41_arithmetic.md R223 to R226). -/
def Obligations.RegisterMovesAndExtensions : Prop :=
  ∀ (s : State) (imm d : BitVec 8) (m n : Reg),
    Completes (.movImm imm n) s [.reg n] (fun t => (t.reg n).toInt = imm.toInt) ∧
    Completes (.mov m n) s [.reg n] (fun t => t.reg n = s.reg m) ∧
    Completes (.mova d) s [.reg 0] (fun t =>
      (t.reg 0).toNat = (s.pc.toNat / 4 * 4 + 4 * d.toNat) % 2 ^ 32) ∧
    Completes (.movt n) s [.reg n] (fun t => (t.reg n).toNat = s.sr.t.toNat) ∧
    Completes (.swapB m n) s [.reg n] (fun t =>
      (t.reg n).toNat = (s.reg m).toNat / 65536 * 65536 + (s.reg m).toNat % 256 * 256 +
        (s.reg m).toNat / 256 % 256) ∧
    Completes (.swapW m n) s [.reg n] (fun t =>
      (t.reg n).toNat = (s.reg m).toNat % 65536 * 65536 + (s.reg m).toNat / 65536) ∧
    Completes (.xtrct m n) s [.reg n] (fun t =>
      (t.reg n).toNat = (s.reg m).toNat % 65536 * 65536 + (s.reg n).toNat / 65536) ∧
    Completes (.extsB m n) s [.reg n] (fun t => (t.reg n).toInt = ((s.reg m).setWidth 8).toInt) ∧
    Completes (.extsW m n) s [.reg n] (fun t => (t.reg n).toInt = ((s.reg m).setWidth 16).toInt) ∧
    Completes (.extuB m n) s [.reg n] (fun t => (t.reg n).toNat = (s.reg m).toNat % 256) ∧
    Completes (.extuW m n) s [.reg n] (fun t => (t.reg n).toNat = (s.reg m).toNat % 65536)

/-- Every load without increment, at an aligned address, completes: the destination holds the value the
bus reads at the effective address, extended by its width, and nothing else changes
(40_data_transfer.md R151). -/
def Obligations.LoadsComplete : Prop :=
  ∀ (i : Instr) (s : State) (z : Size) (a : Word) (n : Reg),
    loadOf s i = some (z, a, n) → Aligned z a →
    Completes i s [.reg n, .execWait, .draws] (fun t => Loaded z (s.plat.read z a).1 (t.reg n))

/-- Every load with post-increment, at an aligned address, completes: the destination holds the loaded
value, and the address register is incremented unless it is the destination
(40_data_transfer.md R152). -/
def Obligations.PostIncrementLoadsComplete : Prop :=
  ∀ (i : Instr) (s : State) (z : Size) (m n : Reg),
    popOf i = some (z, m, n) → Aligned z (s.reg m) →
    Completes i s [.reg n, .reg m, .execWait, .draws] (fun t =>
      Loaded z (s.plat.read z (s.reg m)).1 (t.reg n) ∧
      (n ≠ m → t.reg m = incremented z (s.reg m)))

/-- Every store without decrement, at an aligned address, completes. Into a page that may be written it
stores the register's low bytes at the effective address, most significant first, and changes nothing
else; anywhere else it leaves what the bus write leaves (40_data_transfer.md R151). -/
def Obligations.StoresComplete : Prop :=
  ∀ (i : Instr) (s : State) (z : Size) (a v : Word),
    storeOf s i = some (z, a, v) → Aligned z a →
    (Canonical s.plat → Writable s.plat a →
      CompletesStoring i s (place s.plat a) z.bytes [] (fun t => Holds t.plat (place s.plat a) z.bytes v)) ∧
    (∀ p, s.plat.write z a v = .ok p → CompletesOn i s p [] (fun _ => True))

/-- Every store with pre-decrement, at an aligned address, completes: the value captured before the
decrement is stored at the decremented address, and the address register ends there
(40_data_transfer.md R152, 45_system.md R333 to R335, R339 to R341). -/
def Obligations.PreDecrementStoresComplete : Prop :=
  ∀ (i : Instr) (s : State) (z : Size) (n : Reg) (v : Word),
    pushOf s i = some (z, n, v) → Aligned z (s.reg n) →
    let a := decremented z (s.reg n)
    (Canonical s.plat → Writable s.plat a →
      CompletesStoring i s (place s.plat a) z.bytes [.reg n] (fun t =>
        Holds t.plat (place s.plat a) z.bytes v ∧ t.reg n = a)) ∧
    (∀ p, s.plat.write z a v = .ok p → CompletesOn i s p [.reg n] (fun t => t.reg n = a))

/-- A misaligned access is not performed. Of an instruction: under `fault` the CPU ends in Misaligned with
nothing else changed; under `address_error` the instruction has no effect, an address error is pending,
and any slot closes. MAC.L and MAC.W with Rn aligned and Rm misaligned have read Rn's operand before, so
that read's draws and cost stay (the model's choice, log entry 19). Of a DMA unit: the source, or after
its read the destination, faults under either policy, with the channel as it was (20_memory.md R75,
60_exceptions.md R362, R424). -/
def Obligations.MisalignedAccess : Prop :=
  (∀ (i : Instr) (s : State) (z : Size) (a : Word),
    accessOf s i = some (z, a) → ¬ Aligned z a → (i = .rte → s.inDelaySlot = false) →
    (s.plat.params.misalignedPolicy = .fault →
      exec i s =
        .fault (.raised { reason := .misaligned a z.bytes, at_ := s.curAddr }
          { s with fault := some { reason := .misaligned a z.bytes, at_ := s.curAddr } })) ∧
    (s.plat.params.misalignedPolicy = .addressError →
      exec i s =
        .next { s with pendingAddressError := true, inDelaySlot := false, inNoIntSlot := false })) ∧
  (∀ (i : Instr) (s : State) (z : Size) (m n : Reg),
    (i = .macL m n ∧ z = .long ∨ i = .macW m n ∧ z = .word) →
    Aligned z (s.reg n) → ¬ Aligned z (s.reg m) →
    let u : State := { s with plat := (s.plat.read z (s.reg n)).2
                              execWait := s.execWait + s.plat.cost (s.reg n) }
    (s.plat.params.misalignedPolicy = .fault →
      exec i s =
        .fault (.raised { reason := .misaligned (s.reg m) z.bytes, at_ := s.curAddr }
          { u with fault := some { reason := .misaligned (s.reg m) z.bytes, at_ := s.curAddr } })) ∧
    (s.plat.params.misalignedPolicy = .addressError →
      exec i s =
        .next { u with pendingAddressError := true, inDelaySlot := false, inNoIntSlot := false })) ∧
  (∀ (p : Platform) (c : Fin 4) (z : Size) (check : Platform → Io),
    (¬ Aligned z (p.chan c).sar →
      dmaUnit check c z p = .raise (.misaligned (p.chan c).sar z.bytes) p) ∧
    (Aligned z (p.chan c).sar → ¬ Aligned z (p.chan c).dar →
      dmaUnit check c z p =
        .raise (.misaligned (p.chan c).dar z.bytes) (p.read z (p.chan c).sar).2))

/-- A write to a BIOS or ROM page is not performed and ends the CPU in RomWrite: a store; a
read-modify-write of a byte, which has read it before (its cost stays charged, log entry 19); and a DMA
unit, whose channel stays as it was. Nothing else changes (20_memory.md R84, 60_exceptions.md R424). -/
def Obligations.RomStoreFaults : Prop :=
  (∀ (i : Instr) (s : State) (z : Size) (a v : Word),
    (storeOf s i = some (z, a, v) ∨
      ∃ n, pushOf s i = some (z, n, v) ∧ a = decremented z (s.reg n)) →
    Aligned z a → ReadOnly s.plat a →
    exec i s =
      .fault (.raised { reason := .romWrite a, at_ := s.curAddr }
        { s with fault := some { reason := .romWrite a, at_ := s.curAddr } })) ∧
  (∀ (i : Instr) (s : State) (a : Word) (f : Byte → Byte) (g : Byte → Bool),
    modifyOf s i = some (a, f, g) → ReadOnly s.plat a →
    exec i s =
      .fault (.raised { reason := .romWrite a, at_ := s.curAddr }
        { s with execWait := s.execWait + s.plat.cost a
                 fault := some { reason := .romWrite a, at_ := s.curAddr } })) ∧
  (∀ (p : Platform) (c : Fin 4) (z : Size) (check : Platform → Io),
    Aligned z (p.chan c).sar → Aligned z (p.chan c).dar → ReadOnly p (p.chan c).dar →
    dmaUnit check c z p = .raise (.romWrite (p.chan c).dar) (p.read z (p.chan c).sar).2)

/-! ### Arithmetic -/

/-- Addition, subtraction and negation modulo 2^32, and DT (41_arithmetic.md R204, R205, R222, R232,
R234). -/
def Obligations.AdditionAndSubtraction : Prop :=
  ∀ (s : State) (imm : BitVec 8) (m n : Reg),
    Completes (.add m n) s [.reg n] (fun t =>
      (t.reg n).toNat = ((s.reg n).toNat + (s.reg m).toNat) % 2 ^ 32) ∧
    Completes (.addImm imm n) s [.reg n] (fun t =>
      t.reg n = BitVec.ofInt 32 ((s.reg n).toInt + imm.toInt)) ∧
    Completes (.sub m n) s [.reg n] (fun t =>
      t.reg n = BitVec.ofInt 32 (((s.reg n).toNat : Int) - (s.reg m).toNat)) ∧
    Completes (.neg m n) s [.reg n] (fun t =>
      t.reg n = BitVec.ofInt 32 (- ((s.reg m).toNat : Int))) ∧
    Completes (.dt n) s [.reg n, .flagT] (fun t =>
      t.reg n = BitVec.ofInt 32 (((s.reg n).toNat : Int) - 1) ∧
      (t.sr.t = true ↔ (s.reg n).toNat = 1))

/-- The carry and borrow forms are exact with T as the 33rd bit, and ADDV and SUBV set T exactly when the
signed result does not fit in 32 bits (41_arithmetic.md R206, R207, R233, R235, R236). -/
def Obligations.CarryBorrowAndOverflow : Prop :=
  ∀ (s : State) (m n : Reg),
    Completes (.addc m n) s [.reg n, .flagT] (fun t =>
      (s.reg n).toNat + (s.reg m).toNat + s.sr.t.toNat =
        (t.reg n).toNat + 2 ^ 32 * t.sr.t.toNat) ∧
    Completes (.subc m n) s [.reg n, .flagT] (fun t =>
      (s.reg n).toNat + 2 ^ 32 * t.sr.t.toNat =
        (t.reg n).toNat + (s.reg m).toNat + s.sr.t.toNat) ∧
    Completes (.negc m n) s [.reg n, .flagT] (fun t =>
      2 ^ 32 * t.sr.t.toNat = (t.reg n).toNat + (s.reg m).toNat + s.sr.t.toNat) ∧
    Completes (.addv m n) s [.reg n, .flagT] (fun t =>
      t.reg n = BitVec.ofInt 32 ((s.reg n).toInt + (s.reg m).toInt) ∧
      (t.sr.t = true ↔ (t.reg n).toInt ≠ (s.reg n).toInt + (s.reg m).toInt)) ∧
    Completes (.subv m n) s [.reg n, .flagT] (fun t =>
      t.reg n = BitVec.ofInt 32 ((s.reg n).toInt - (s.reg m).toInt) ∧
      (t.sr.t = true ↔ (t.reg n).toInt ≠ (s.reg n).toInt - (s.reg m).toInt))

/-- The comparisons write T and nothing else (41_arithmetic.md R208 to R216). -/
def Obligations.Comparisons : Prop :=
  ∀ (s : State) (imm : BitVec 8) (m n : Reg),
    Completes (.cmpEqImm imm) s [.flagT] (fun t =>
      t.sr.t = true ↔ (s.reg 0).toInt = imm.toInt) ∧
    Completes (.cmpEq m n) s [.flagT] (fun t => t.sr.t = true ↔ s.reg n = s.reg m) ∧
    Completes (.cmpHs m n) s [.flagT] (fun t =>
      t.sr.t = true ↔ (s.reg n).toNat ≥ (s.reg m).toNat) ∧
    Completes (.cmpGe m n) s [.flagT] (fun t =>
      t.sr.t = true ↔ (s.reg n).toInt ≥ (s.reg m).toInt) ∧
    Completes (.cmpHi m n) s [.flagT] (fun t =>
      t.sr.t = true ↔ (s.reg n).toNat > (s.reg m).toNat) ∧
    Completes (.cmpGt m n) s [.flagT] (fun t =>
      t.sr.t = true ↔ (s.reg n).toInt > (s.reg m).toInt) ∧
    Completes (.cmpPz n) s [.flagT] (fun t => t.sr.t = true ↔ (s.reg n).toInt ≥ 0) ∧
    Completes (.cmpPl n) s [.flagT] (fun t => t.sr.t = true ↔ (s.reg n).toInt > 0) ∧
    Completes (.cmpStr m n) s [.flagT] (fun t => t.sr.t = true ↔
      ∃ k, k < 4 ∧ (s.reg n).toNat / 256 ^ k % 256 = (s.reg m).toNat / 256 ^ k % 256)

/-- The division set-up and the single non-restoring step, with the 33-bit difference or sum as an exact
equation: `c` is its borrow or carry, and Rm is read after the shift (41_arithmetic.md R217 to
R219). -/
def Obligations.DivisionSteps : Prop :=
  ∀ (s : State) (m n : Reg),
    Completes .div0u s [.flagQ, .flagM, .flagT] (fun t =>
      t.sr.q = false ∧ t.sr.m = false ∧ t.sr.t = false) ∧
    Completes (.div0s m n) s [.flagQ, .flagM, .flagT] (fun t =>
      (t.sr.q = true ↔ (s.reg n).toInt < 0) ∧ (t.sr.m = true ↔ (s.reg m).toInt < 0) ∧
      (t.sr.t = true ↔ t.sr.q ≠ t.sr.m)) ∧
    Completes (.div1 m n) s [.reg n, .flagQ, .flagT] (fun t =>
      let shifted := (2 * (s.reg n).toNat + s.sr.t.toNat) % 2 ^ 32
      let d := if n = m then shifted else (s.reg m).toNat
      ∃ c : Bool,
        (s.sr.q = s.sr.m → shifted + 2 ^ 32 * c.toNat = (t.reg n).toNat + d) ∧
        (s.sr.q ≠ s.sr.m → shifted + d = (t.reg n).toNat + 2 ^ 32 * c.toNat) ∧
        t.sr.q = (decide ((s.reg n).toNat ≥ 2 ^ 31) ^^ c ^^ s.sr.m) ∧
        (t.sr.t = true ↔ t.sr.q = s.sr.m))

/-- The multiplications: the 32-bit forms leave the exact 64-bit product in MACH:MACL, the others the
product in MACL and MACH as it was (41_arithmetic.md R202, R220, R221, R229 to R231). -/
def Obligations.Multiplications : Prop :=
  ∀ (s : State) (m n : Reg),
    Completes (.dmulsL m n) s [.mach, .macl] (fun t =>
      AccumulatorIs t ((s.reg n).toInt * (s.reg m).toInt)) ∧
    Completes (.dmuluL m n) s [.mach, .macl] (fun t =>
      AccumulatorIs t (((s.reg n).toNat : Int) * (s.reg m).toNat)) ∧
    Completes (.mulL m n) s [.macl] (fun t =>
      t.macl.toNat = (s.reg n).toNat * (s.reg m).toNat % 2 ^ 32) ∧
    Completes (.mulsW m n) s [.macl] (fun t =>
      t.macl.toInt = ((s.reg n).setWidth 16).toInt * ((s.reg m).setWidth 16).toInt) ∧
    Completes (.muluW m n) s [.macl] (fun t =>
      t.macl.toNat = (s.reg n).toNat % 65536 * ((s.reg m).toNat % 65536))

/-- MAC.L with aligned operands reads Rn's long, then Rm's, increments each register by 4 (by 8 when they
are one), and adds the exact product to MACH:MACL, clamped to 48 bits when S is 1
(41_arithmetic.md R227). -/
def Obligations.MacLongAccumulates : Prop :=
  ∀ (s : State) (m n : Reg),
    let a := s.reg n
    let b := if n = m then incremented .long a else s.reg m
    Aligned .long a → Aligned .long b →
    let first := s.plat.read .long a
    let second := first.2.read .long b
    let sum := (BitVec.ofInt 64 (s.mac.toInt + first.1.toInt * second.1.toInt)).toInt
    Completes (.macL m n) s [.reg n, .reg m, .mach, .macl, .execWait, .draws] (fun t =>
      AccumulatorIs t (if s.sr.s then clamp (-2 ^ 47) (2 ^ 47 - 1) sum else sum) ∧
      t.reg m = incremented .long b ∧ (n ≠ m → t.reg n = incremented .long a))

/-- MAC.W with aligned operands: with S = 0 the product is added to MACH:MACL; with S = 1 it is added to
MACL alone, saturated to 32 bits, and MACH's bit 0 is set on saturation under `MACW_SAT_FLAG`
(41_arithmetic.md R228). -/
def Obligations.MacWordAccumulates : Prop :=
  ∀ (s : State) (m n : Reg),
    let a := s.reg n
    let b := if n = m then incremented .word a else s.reg m
    Aligned .word a → Aligned .word b →
    let first := s.plat.read .word a
    let second := first.2.read .word b
    let product := (first.1.setWidth 16).toInt * (second.1.setWidth 16).toInt
    Completes (.macW m n) s [.reg n, .reg m, .mach, .macl, .execWait, .draws] (fun t =>
      (s.sr.s = false → AccumulatorIs t (s.mac.toInt + product)) ∧
      (s.sr.s = true →
        t.macl.toInt = clamp (-2 ^ 31) (2 ^ 31 - 1) (s.macl.toInt + product) ∧
        t.machValue =
          if t.macl.toInt ≠ s.macl.toInt + product ∧ s.plat.params.macwSatFlag = true
          then s.machValue ||| 1 else s.machValue) ∧
      t.reg m = incremented .word b ∧ (n ≠ m → t.reg n = incremented .word a))

/-! ### Logic and shifts -/

/-- The register and immediate logic forms, bit by bit; immediates are zero-extended; TST writes T alone
(42_logic.md R251, R252, R254 to R256, R259, R260, R262, R263). -/
def Obligations.LogicOnRegisters : Prop :=
  ∀ (s : State) (imm : BitVec 8) (m n : Reg),
    Completes (.and m n) s [.reg n] (fun t => ∀ k, k < 32 →
      (t.reg n).getLsbD k = ((s.reg n).getLsbD k && (s.reg m).getLsbD k)) ∧
    Completes (.andImm imm) s [.reg 0] (fun t => ∀ k, k < 32 →
      (t.reg 0).getLsbD k = ((s.reg 0).getLsbD k && imm.getLsbD k)) ∧
    Completes (.or m n) s [.reg n] (fun t => ∀ k, k < 32 →
      (t.reg n).getLsbD k = ((s.reg n).getLsbD k || (s.reg m).getLsbD k)) ∧
    Completes (.orImm imm) s [.reg 0] (fun t => ∀ k, k < 32 →
      (t.reg 0).getLsbD k = ((s.reg 0).getLsbD k || imm.getLsbD k)) ∧
    Completes (.xor m n) s [.reg n] (fun t => ∀ k, k < 32 →
      (t.reg n).getLsbD k = ((s.reg n).getLsbD k ^^ (s.reg m).getLsbD k)) ∧
    Completes (.xorImm imm) s [.reg 0] (fun t => ∀ k, k < 32 →
      (t.reg 0).getLsbD k = ((s.reg 0).getLsbD k ^^ imm.getLsbD k)) ∧
    Completes (.not m n) s [.reg n] (fun t => ∀ k, k < 32 →
      (t.reg n).getLsbD k = !(s.reg m).getLsbD k) ∧
    Completes (.tst m n) s [.flagT] (fun t => t.sr.t = true ↔
      ∀ k, ((s.reg n).getLsbD k && (s.reg m).getLsbD k) = false) ∧
    Completes (.tstImm imm) s [.flagT] (fun t => t.sr.t = true ↔
      ∀ k, ((s.reg 0).getLsbD k && imm.getLsbD k) = false)

/-- The byte read-modify-write forms read the byte at their address, write the new byte there, and write
T only for TAS.B. In a page that may be written nothing else changes; anywhere else they leave what the
bus read and the bus write leave. TST.B reads, writes T and stores nothing, so a ROM byte does not fault
(42_logic.md R250, R253, R257, R258, R261, R264). -/
def Obligations.LogicOnBytes : Prop :=
  (∀ (i : Instr) (s : State) (a : Word) (f : Byte → Byte) (g : Byte → Bool),
      modifyOf s i = some (a, f, g) →
      (Canonical s.plat → Writable s.plat a →
        CompletesStoring i s (place s.plat a) 1 [.flagT] (fun t =>
          byteAt t.plat (place s.plat a) = f (byteAt s.plat (place s.plat a)) ∧
          t.sr.t = g (byteAt s.plat (place s.plat a)))) ∧
      (∀ p, (s.plat.read .byte a).2.write .byte a
          ((f ((s.plat.read .byte a).1.setWidth 8)).setWidth 32) = .ok p →
        CompletesOn i s p [.flagT] (fun t => t.sr.t = g ((s.plat.read .byte a).1.setWidth 8)))) ∧
  (∀ (s : State) (imm : BitVec 8),
      let a := BitVec.ofNat 32 (s.gbr.toNat + (s.reg 0).toNat)
      Completes (.tstB imm) s [.flagT, .execWait, .draws] (fun t => t.sr.t = true ↔
        ∀ k, ((s.plat.read .byte a).1.getLsbD k && imm.getLsbD k) = false))

/-- The one-bit shifts and rotates as exact equations with T as the bit shifted out (and, for ROTCL and
ROTCR, in), and the fixed multi-bit shifts, which leave T alone (43_shift.md R271 to R284). -/
def Obligations.Shifts : Prop :=
  ∀ (s : State) (n : Reg),
    let v := s.reg n
    Completes (.rotl n) s [.reg n, .flagT] (fun t =>
      2 * v.toNat + t.sr.t.toNat = (t.reg n).toNat + 2 ^ 32 * t.sr.t.toNat) ∧
    Completes (.rotr n) s [.reg n, .flagT] (fun t =>
      v.toNat + 2 ^ 32 * t.sr.t.toNat = 2 * (t.reg n).toNat + t.sr.t.toNat) ∧
    Completes (.rotcl n) s [.reg n, .flagT] (fun t =>
      2 * v.toNat + s.sr.t.toNat = (t.reg n).toNat + 2 ^ 32 * t.sr.t.toNat) ∧
    Completes (.rotcr n) s [.reg n, .flagT] (fun t =>
      v.toNat + 2 ^ 32 * s.sr.t.toNat = 2 * (t.reg n).toNat + t.sr.t.toNat) ∧
    Completes (.shal n) s [.reg n, .flagT] (fun t =>
      2 * v.toNat = (t.reg n).toNat + 2 ^ 32 * t.sr.t.toNat) ∧
    Completes (.shar n) s [.reg n, .flagT] (fun t =>
      v.toInt = 2 * (t.reg n).toInt + t.sr.t.toNat) ∧
    Completes (.shll n) s [.reg n, .flagT] (fun t =>
      2 * v.toNat = (t.reg n).toNat + 2 ^ 32 * t.sr.t.toNat) ∧
    Completes (.shlr n) s [.reg n, .flagT] (fun t =>
      v.toNat = 2 * (t.reg n).toNat + t.sr.t.toNat) ∧
    Completes (.shll2 n) s [.reg n] (fun t => (t.reg n).toNat = v.toNat * 2 ^ 2 % 2 ^ 32) ∧
    Completes (.shlr2 n) s [.reg n] (fun t => (t.reg n).toNat = v.toNat / 2 ^ 2) ∧
    Completes (.shll8 n) s [.reg n] (fun t => (t.reg n).toNat = v.toNat * 2 ^ 8 % 2 ^ 32) ∧
    Completes (.shlr8 n) s [.reg n] (fun t => (t.reg n).toNat = v.toNat / 2 ^ 8) ∧
    Completes (.shll16 n) s [.reg n] (fun t => (t.reg n).toNat = v.toNat * 2 ^ 16 % 2 ^ 32) ∧
    Completes (.shlr16 n) s [.reg n] (fun t => (t.reg n).toNat = v.toNat / 2 ^ 16)

/-! ### Branches -/

/-- The conditional branches outside a delay slot: a taken BF or BT goes to its target at once and drops
the prefetched word; a taken BF/S or BT/S opens a delay slot; an untaken one changes nothing
(44_branch.md R290 to R292, R294 to R297). -/
def Obligations.ConditionalBranches : Prop :=
  ∀ (s : State) (d : BitVec 8), s.inDelaySlot = false →
    let target := BitVec.ofInt 32 ((s.pc.toNat : Int) + 2 * d.toInt)
    let jumped := fun t : State => t.pc = target ∧ t.pipe = { s.pipe with valid := false }
    (s.sr.t = false →
      Completes (.bf d) s [.pc, .pipeline] jumped ∧
      Branches (.bfS d) s target [] (fun _ => True) ∧
      Completes (.bt d) s [] (fun _ => True) ∧ Completes (.btS d) s [] (fun _ => True)) ∧
    (s.sr.t = true →
      Completes (.bt d) s [.pc, .pipeline] jumped ∧
      Branches (.btS d) s target [] (fun _ => True) ∧
      Completes (.bf d) s [] (fun _ => True) ∧ Completes (.bfS d) s [] (fun _ => True))

/-- The unconditional branches outside a delay slot: each goes to its target after a delay slot, and the
subroutine calls leave PC, the address after the slot, in PR (44_branch.md R290, R298 to R304). -/
def Obligations.UnconditionalBranches : Prop :=
  ∀ (s : State) (d : BitVec 12) (m : Reg), s.inDelaySlot = false →
    let near := BitVec.ofInt 32 ((s.pc.toNat : Int) + 2 * d.toInt)
    let far := BitVec.ofNat 32 (s.pc.toNat + (s.reg m).toNat)
    let linked := fun t : State => t.pr = s.pc
    Branches (.bra d) s near [] (fun _ => True) ∧
    Branches (.braf m) s far [] (fun _ => True) ∧
    Branches (.bsr d) s near [.pr] linked ∧
    Branches (.bsrf m) s far [.pr] linked ∧
    Branches (.jmp m) s (s.reg m) [] (fun _ => True) ∧
    Branches (.jsr m) s (s.reg m) [.pr] linked ∧
    Branches .rts s s.pr [] (fun _ => True)

/-! ### System and control -/

/-- The moves between a general register and a control or system register, and the loads of one from
memory at an aligned address, which increment the address register by 4. A load of SR stores 0x000003F3
of the value, SR reads with its reserved bits 0, and MACH keeps its bits (45_system.md R314 to R325, R330
to R332, R336 to R338). -/
def Obligations.ControlRegisterMoves : Prop :=
  (∀ (s : State) (m n : Reg),
    Completes (.ldcSr m) s [.flagT, .flagS, .mask, .flagQ, .flagM] (fun t =>
      t.srWord = s.reg m &&& 0x000003F3) ∧
    Completes (.ldcGbr m) s [.gbr] (fun t => t.gbr = s.reg m) ∧
    Completes (.ldcVbr m) s [.vbr] (fun t => t.vbr = s.reg m) ∧
    Completes (.ldsMach m) s [.mach] (fun t =>
      t.machValue = keptHigh s.plat.params.machBits (s.reg m)) ∧
    Completes (.ldsMacl m) s [.macl] (fun t => t.macl = s.reg m) ∧
    Completes (.ldsPr m) s [.pr] (fun t => t.pr = s.reg m) ∧
    Completes (.stcSr n) s [.reg n] (fun t =>
      (t.reg n).toNat = s.sr.t.toNat + 2 * s.sr.s.toNat + 16 * s.sr.i.toNat + 256 * s.sr.q.toNat +
        512 * s.sr.m.toNat) ∧
    Completes (.stcGbr n) s [.reg n] (fun t => t.reg n = s.gbr) ∧
    Completes (.stcVbr n) s [.reg n] (fun t => t.reg n = s.vbr) ∧
    Completes (.stsMach n) s [.reg n] (fun t =>
      t.reg n = keptHigh s.plat.params.machBits s.mach) ∧
    Completes (.stsMacl n) s [.reg n] (fun t => t.reg n = s.macl) ∧
    Completes (.stsPr n) s [.reg n] (fun t => t.reg n = s.pr)) ∧
  (∀ (s : State) (m : Reg), Aligned .long (s.reg m) →
    let v := (s.plat.read .long (s.reg m)).1
    let popped := fun t : State => t.reg m = incremented .long (s.reg m)
    Completes (.ldcLSr m) s [.flagT, .flagS, .mask, .flagQ, .flagM, .reg m, .execWait, .draws]
      (fun t => t.srWord = v &&& 0x000003F3 ∧ popped t) ∧
    Completes (.ldcLGbr m) s [.gbr, .reg m, .execWait, .draws] (fun t => t.gbr = v ∧ popped t) ∧
    Completes (.ldcLVbr m) s [.vbr, .reg m, .execWait, .draws] (fun t => t.vbr = v ∧ popped t) ∧
    Completes (.ldsLMach m) s [.mach, .reg m, .execWait, .draws] (fun t =>
      t.machValue = keptHigh s.plat.params.machBits v ∧ popped t) ∧
    Completes (.ldsLMacl m) s [.macl, .reg m, .execWait, .draws] (fun t => t.macl = v ∧ popped t) ∧
    Completes (.ldsLPr m) s [.pr, .reg m, .execWait, .draws] (fun t => t.pr = v ∧ popped t))

/-! ### The bus -/

/-- Address translation as arithmetic: an address whose bits 27:24 are 0xF loses bits 31:28, any other
loses bits 31:27 (20_memory.md R71). -/
def Obligations.AddressTranslation : Prop :=
  ∀ a : Word,
    (Machine.translate a).toNat =
      if a.toNat / 2 ^ 24 % 16 = 15 then a.toNat % 2 ^ 28 else a.toNat % 2 ^ 27

/-- A read of a buffer assembles its bytes big-endian, zero-extended, and has no side effect; a write to a
page that may be written stores the bytes big-endian and changes nothing else of the platform
(20_memory.md R77, R83, R84). -/
def Obligations.BufferAccessIsBigEndian : Prop :=
  (∀ (p : Platform) (a : Word) (e : PageEntry), p.target (physical a) = .buffer e →
    let b := fun k => (byteAt p (place p a + k)).toNat
    (p.read .byte a).1.toNat = b 0 ∧
    (p.read .word a).1.toNat = 256 * b 0 + b 1 ∧
    (p.read .long a).1.toNat = 16777216 * b 0 + 65536 * b 1 + 256 * b 2 + b 3 ∧
    ∀ z, (p.read z a).2 = p) ∧
  (∀ (p : Platform) (z : Size) (a v : Word), Canonical p → Writable p a →
    ∃ q, p.write z a v = .ok q ∧ Canonical q ∧ Holds q (place p a) z.bytes v ∧
      (∀ k, k < place p a ∨ place p a + z.bytes ≤ k → byteAt q k = byteAt p k) ∧
      { q with mem := p.mem } = p)

/-- The page table of a memory map. A page of a buffer region that no earlier region of the map claims
points to the page of the same number of the region's buffer, with the writability of its kind; so two
regions over one buffer share its bytes, and a byte stored through one address is read through every
other address of the same place. A byte of a buffer's padding that nothing has stored to reads 0xFF
(20_memory.md R80, R82, R83, R86). That page i of a region, counted from the page that holds its base, is
page i of its buffer, and that the first region of a page wins, are the model's reading (log entry 27); a
base offset as a page of one storage is its form of it (log entry 10). -/
def Obligations.MapPlacesBuffers : Prop :=
  (∀ (before after : List Region) (r : Region) (kind : BufferKind) (b : Buffer) (i k : Nat),
    r.kind = .buffer kind b → 4096 * i < r.size → 4096 * i < b.size → k < 4096 →
    (∀ r' ∈ before, ∀ kind' b', r'.kind = .buffer kind' b' →
      r.base / 4096 + i < r'.base / 4096 ∨
        r'.base / 4096 + (r'.size + 4095) / 4096 ≤ r.base / 4096 + i) →
    ∃ e, (buildPageTable (before ++ r :: after)).lookup (4096 * (r.base / 4096 + i) + k) = some e ∧
      e.buffer = b ∧ e.index = i ∧ e.kind = kind ∧ e.cost = r.cost ∧
      e.place (4096 * (r.base / 4096 + i) + k) = 4096 * (b.page + i) + k ∧
      (e.writable = true ↔ kind ≠ .bios ∧ kind ≠ .cartRom)) ∧
  (∀ (p q : Platform) (a a' v : Word), Canonical p → Writable p a →
    (∃ e, p.target (physical a') = .buffer e) → place p a' = place p a →
    p.write .byte a v = .ok q → (q.read .byte a').1.toNat = v.toNat % 256) ∧
  (∀ (p : Platform) (k : Nat), (∀ b, (k, b) ∉ p.mem) →
    (∃ e ∈ p.pageTable, bufferHolds e.buffer k = true) →
    (∀ e ∈ p.pageTable, bufferHolds e.buffer k = true →
      4096 * e.buffer.page + e.buffer.size ≤ k) →
    byteAt p k = 0xFF)

/-- An unmapped read of any width returns 0, and an unmapped write changes no state
(20_memory.md R87). -/
def Obligations.UnmappedAccess : Prop :=
  ∀ (p : Platform) (z : Size) (a v : Word), p.target (physical a) = .unmapped →
    p.read z a = (0, p) ∧ p.write z a v = .ok p

/-- A read of unassigned on-chip bytes or of a device region of the environment is made of draws, one for
each byte, and moves the draw counter on by as many, so that no two reads share a draw. A write of
unassigned bytes changes nothing, and a write to the environment hands over its address and its bytes and
changes nothing else (60_exceptions.md R452, R461, 20_memory.md R90). That a draw is the counter's, and
that a write to the environment is appended to a list and changes nothing else, are the model's form of it
(log entries 7 and 18). -/
def Obligations.UnassignedAndEnvironmentAccess : Prop :=
  (∀ (p : Platform) (z : Size) (a v : Word) (off : Nat), p.target (physical a) = .onchip off →
    (∀ k, k < z.bytes → ¬ assigned (off + k)) →
    Drawn p z.bytes (p.read z a).1 ∧ (p.read z a).2 = { p with draws := p.draws + z.bytes } ∧
    p.write z a v = .ok p) ∧
  (∀ (p : Platform) (z : Size) (a v : Word) (r : Region), p.target (physical a) = .device r →
    Drawn p z.bytes (p.read z a).1 ∧ (p.read z a).2 = { p with draws := p.draws + z.bytes } ∧
    ∃ bytes, p.write z a v =
        .ok { p with envWrites := p.envWrites ++ [{ address := a, bytes := bytes }] } ∧
      bytes.length = z.bytes ∧
      ∀ k, k < z.bytes → (bytes.getD k 0).toNat = v.toNat / 256 ^ (z.bytes - 1 - k) % 256)

/-- A word written to an interrupt controller register reads back, with IPRE[3:0] as 0 and only ICR[8:0]
kept, and nothing else changes. A byte written to one is merged with the register's other byte, and a long
access covers two registers that lie side by side (60_exceptions.md R371 to R373, 20_memory.md R89). -/
def Obligations.IntcReadback : Prop :=
  (∀ (p : Platform) (r : IntcReg) (a v : Word), p.target (physical a) = .onchip (intcOffset r) →
    ∃ q, p.write .word a v = .ok q ∧
      (q.read .word a).1.toNat = intcKept r v.toNat ∧
      (∀ r', r' ≠ r → q.intc.get r' = p.intc.get r') ∧ { q with intc := p.intc } = p) ∧
  (∀ (p : Platform) (r : IntcReg) (a v : Word) (i : Nat), i < 2 →
    p.target (physical a) = .onchip (intcOffset r + i) →
    let old := (p.intc.get r).toNat
    let new := if i = 0 then v.toNat % 256 * 256 + old % 256 else old / 256 * 256 + v.toNat % 256
    ∃ q, p.write .byte a v = .ok q ∧ (q.intc.get r).toNat = intcKept r new ∧
      (q.read .byte a).1.toNat =
        (if i = 0 then intcKept r new / 256 else intcKept r new % 256) ∧
      (∀ r', r' ≠ r → q.intc.get r' = p.intc.get r') ∧ { q with intc := p.intc } = p) ∧
  (∀ (p : Platform) (r r' : IntcReg) (a v : Word), intcOffset r' = intcOffset r + 2 →
    p.target (physical a) = .onchip (intcOffset r) →
    ∃ q, p.write .long a v = .ok q ∧
      (q.intc.get r).toNat = intcKept r (v.toNat / 65536) ∧
      (q.intc.get r').toNat = intcKept r' v.toNat ∧
      (q.read .long a).1.toNat = 65536 * (q.intc.get r).toNat + (q.intc.get r').toNat ∧
      (∀ x, x ≠ r → x ≠ r' → q.intc.get x = p.intc.get x) ∧ { q with intc := p.intc } = p)

/-! ### Devices -/

/-- A write of SAR, DAR, TCR or DMAOR stores its value and then re-evaluates the channels, which does
nothing while none is enabled. SAR, DAR and DMAOR read back what was stored; a TCR of 0 stores 0x10000
and reads back as 0 (60_exceptions.md R412, R413, R420). -/
def Obligations.DmaRegisterWrites : Prop :=
  (∀ (p : Platform) (c : Fin 4) (a v : Word),
    (p.target (physical a) = .onchip (0x140 + 0x10 * c.val) →
      p.write .long a v = checkActivations (p.setChan c { p.chan c with sar := v }) ∧
      p.read .long a = ((p.chan c).sar, p)) ∧
    (p.target (physical a) = .onchip (0x144 + 0x10 * c.val) →
      p.write .long a v = checkActivations (p.setChan c { p.chan c with dar := v }) ∧
      p.read .long a = ((p.chan c).dar, p)) ∧
    (p.target (physical a) = .onchip (0x14A + 0x10 * c.val) →
      (∃ n : BitVec 17, n.toNat = (if v.toNat % 65536 = 0 then 0x10000 else v.toNat % 65536) ∧
        p.write .word a v = checkActivations (p.setChan c { p.chan c with count := n })) ∧
      (p.read .word a).1.toNat = (p.chan c).count.toNat % 65536 ∧ (p.read .word a).2 = p) ∧
    (p.target (physical a) = .onchip 0x148 →
      p.write .word a v = checkActivations { p with dmaor := v.setWidth 16 } ∧
      p.read .word a = (p.dmaor.setWidth 32, p))) ∧
  (∀ p : Platform, NoDma p → checkActivations p = .ok p)

/-- A write to CHCR with IE = 1, with a reserved step code, or to SMR with C/A = 1 ends in
Unimplemented, which records the register and the value, and stores nothing. Any other value of CHCR is
stored, except that TE can only be cleared, and the channels are re-evaluated; any other value of SMR is
stored (60_exceptions.md R365, R415, R416, R431). -/
def Obligations.ControlRegisterRefusals : Prop :=
  (∀ (p : Platform) (c : Fin 4) (a v : Word),
    p.target (physical a) = .onchip (0x14E + 0x10 * c.val) →
    (v.getLsbD 2 = true →
      p.write .word a v = .raise (.unimplemented .dmaInterrupt (.chcr c) (v.setWidth 16)) p) ∧
    (v.getLsbD 2 = false → (v.toNat / 2 ^ 14 % 4 = 3 ∨ v.toNat / 2 ^ 12 % 4 = 3) →
      p.write .word a v = .raise (.unimplemented .dmaStep (.chcr c) (v.setWidth 16)) p) ∧
    (v.getLsbD 2 = false → v.toNat / 2 ^ 14 % 4 ≠ 3 → v.toNat / 2 ^ 12 % 4 ≠ 3 →
      ∃ h : Half, p.write .word a v = checkActivations (p.setChan c { p.chan c with chcr := h }) ∧
        ∀ k, k < 16 → h.getLsbD k =
          if k = 1 then v.getLsbD 1 && (p.chan c).chcr.getLsbD 1 else v.getLsbD k)) ∧
  (∀ (p : Platform) (port : Port) (a v : Word),
    p.target (physical a) = .onchip (portBase port) →
    (v.getLsbD 7 = true →
      p.write .byte a v =
        .raise (.unimplemented .syncSerial (.smr port) ((low8 v).setWidth 16)) p) ∧
    (v.getLsbD 7 = false →
      p.write .byte a v = .ok (p.setSci { p.sci port with smr := low8 v } port)))

/-- An AUTO channel whose units lie in buffers, of bytes or of words, with any steps, runs its whole
transfer in one activation: the count goes to 0, TE is set, each address moves by its step times the unit
size for each unit, and nothing but its channel and the buffers' bytes changes; no byte outside the
destinations changes, and the units are copied (60_exceptions.md R416, R417, R422 to R424). -/
def Obligations.AutoTransferCompletes : Prop :=
  ∀ (p : Platform) (c : Fin 4) (check : Platform → Io),
    let ch := p.chan c
    let n := ch.count.toNat
    Canonical p → p.rsLine ch.rs = .auto → StepsGiven ch → BetweenBuffers p ch →
    ∃ q, runChannel check c p = .ok q ∧
      q.chan c =
        { ch with sar := sourceAt ch n, dar := targetAt ch n, count := 0, chcr := ch.chcr ||| 0x0002 } ∧
      (∀ c', c' ≠ c → q.chan c' = p.chan c') ∧ Canonical q ∧ Transferred p q ch

/-- A write of CHCR that enables an idle channel, while no other channel is enabled, runs its transfer
before it ends. With AUTO, of bytes or of words with any steps, that is the whole transfer between
buffers; a channel whose request line is not asserted only stores the value. Serial pacing: whenever the
channels are re-evaluated, a channel of byte units on the transmit line of a busy port, which writes to
that port's TDR, moves one unit: the byte is queued, the line drops, and the channel pauses with its
addresses and count one unit further (60_exceptions.md R415 to R417, R422 to R424, R434, R443, R444,
70_reset_and_hazards.md R495). -/
def Obligations.EnablingWriteRunsTheTransfer : Prop :=
  (∀ (p : Platform) (c : Fin 4) (a v : Word),
    let ch : DmaChannel := { p.chan c with chcr := v.setWidth 16 }
    let n := ch.count.toNat
    p.target (physical a) = .onchip (0x14E + 0x10 * c.val) → ch.active = false →
    (∀ c', c' ≠ c → (p.chan c').chcr.getLsbD 0 = false) → v.toNat % 8 = 1 → StepsGiven ch →
    (p.asserted (p.rsLine ch.rs) = false → p.write .word a v = .ok (p.setChan c ch)) ∧
    (p.rsLine ch.rs = .auto → Canonical p → BetweenBuffers p ch →
      ∃ q, p.write .word a v = .ok q ∧
        q.chan c =
          { ch with sar := sourceAt ch n, dar := targetAt ch n, count := 0, chcr := ch.chcr ||| 0x0002 } ∧
        (∀ c', c' ≠ c → q.chan c' = p.chan c') ∧ Transferred p q ch)) ∧
  (∀ (p : Platform) (c : Fin 4) (port : Port) (e : PageEntry),
    let ch := p.chan c
    ch.active = false → ch.chcr.getLsbD 0 = true → ch.chcr.getLsbD 1 = false →
    unitOf ch.chcr = .byte → StepsGiven ch → ch.count ≠ 0 →
    p.rsLine ch.rs = txLine port → p.asserted (txLine port) = true →
    (∀ c', c' ≠ c → (p.chan c').chcr.getLsbD 0 = false) →
    p.target (physical ch.sar) = .buffer e →
    p.target (physical ch.dar) = .onchip (portBase port + 3) → (p.sci port).busy = true →
    checkActivations p =
      .ok (((p.setSci
          { p.sci port with tdr := byteAt p (place p ch.sar), txEmpty := false } port).setLine false
            (txLine port)).setChan c
        { ch with sar := sourceAt ch 1, dar := targetAt ch 1, count := ch.count - 1
                  chcr := if ch.count = 1 then ch.chcr ||| 0x0002 else ch.chcr }))

/-- A byte written to TDR of an idle port with TE set, with no DMA channel enabled, starts a transmission:
the shifter is loaded, TDR is free again, TEND is 0, and the bit clock is due one bit period later. On a
busy port the byte is queued and the transmit request line drops. With TE 0 the byte is queued, nothing
starts, the line is down and nothing else changes (60_exceptions.md R434, R438, R444). -/
def Obligations.TdrWriteStartsOrQueues : Prop :=
  ∀ (p : Platform) (port : Port) (a v : Word),
    p.target (physical a) = .onchip (portBase port + 3) →
    (NoDma p → (p.sci port).scr.getLsbD 5 = true →
      ∃ q, p.write .byte a v = .ok q ∧ (q.sci port).tdr = v.setWidth 8 ∧
        ((p.sci port).busy = false →
          (q.sci port).shiftReg = v.setWidth 8 ∧ (q.sci port).txEmpty = true ∧
          (q.sci port).bitsLeft = 8 ∧ (q.sci port).tend = false ∧ (q.sci port).busy = true ∧
          q.asserted (txLine port) = true ∧
          q.events = (queued p (bitPeriod (p.sci port)) port).events) ∧
        ((p.sci port).busy = true →
          (q.sci port).txEmpty = false ∧ (q.sci port).shiftReg = (p.sci port).shiftReg ∧
          (q.sci port).bitsLeft = (p.sci port).bitsLeft ∧ q.events = p.events ∧
          q.asserted (txLine port) = false)) ∧
    (NoDma p ∨ p.asserted (txLine port) = false → (p.sci port).scr.getLsbD 5 = false →
      p.write .byte a v =
        .ok ((p.setSci { p.sci port with tdr := low8 v, txEmpty := false } port).setLine false
          (txLine port)))

/-- The other registers of a port. SCR is stored, the transmit request line follows TE and an empty TDR,
and a byte queued while TE was 0 starts on an idle port; BRR is stored; of SSR, RDRF, ORER, FER and PER
can only be cleared, MPBT is stored, and the rest does not change; SSR reads its flags in their places,
TDRE as an empty TDR; RDR reads 0 and ignores writes. No DMA channel is enabled where a request line may
change (60_exceptions.md R432, R433, R435, R436, R444). -/
def Obligations.SerialRegisterWrites : Prop :=
  ∀ (p : Platform) (port : Port) (a v : Word),
    let c := p.sci port
    (NoDma p → p.target (physical a) = .onchip (portBase port + 2) →
      let d : SciPort := { c with scr := low8 v }
      p.write .byte a v =
        if v.getLsbD 5 = true ∧ c.busy = false ∧ c.txEmpty = false then
          .ok ((queued (p.setSci (loaded d) port) (bitPeriod c) port).setLine true (txLine port))
        else .ok ((p.setSci d port).setLine (v.getLsbD 5 && c.txEmpty) (txLine port))) ∧
    (p.target (physical a) = .onchip (portBase port + 1) →
      p.write .byte a v = .ok (p.setSci { c with brr := low8 v } port)) ∧
    (p.target (physical a) = .onchip (portBase port + 4) →
      p.write .byte a v =
        .ok (p.setSci { c with rdrf := c.rdrf && v.getLsbD 6, orer := c.orer && v.getLsbD 5
                               fer := c.fer && v.getLsbD 4, per := c.per && v.getLsbD 3
                               mpbt := v.getLsbD 0 } port) ∧
      (p.read .byte a).2 = p ∧
      (p.read .byte a).1.toNat = 128 * c.txEmpty.toNat + 64 * c.rdrf.toNat + 32 * c.orer.toNat +
        16 * c.fer.toNat + 8 * c.per.toNat + 4 * c.tend.toNat + 2 * c.mpb.toNat + c.mpbt.toNat) ∧
    (p.target (physical a) = .onchip (portBase port + 5) →
      p.write .byte a v = .ok p ∧ p.read .byte a = (0, p))

/-- The transmitter. Eight bits shifted out put the byte of the shift register into the output register,
and the bit period lies between 32 and 524288 cycles. A bit clock shifts one bit; while bits are left it
is due again one period later, less its lateness. The last bit appends the byte, its port and the cycle to
the output log; then a byte queued under TE starts, and otherwise, as when TE was cleared during the byte,
the shifter is free and the transmission ended; nothing else changes. The start of a queued byte asserts
the request line, which re-evaluates the DMA channels and so resumes one that waits for the line; with none
enabled nothing more happens (60_exceptions.md R439 to R445, R438). -/
def Obligations.ByteTransmission : Prop :=
  (∀ c : SciPort, (SciPort.shifted^[8] c).prepared = c.shiftReg ∧ c.cyclesPerBit = bitPeriod c ∧
    32 ≤ c.cyclesPerBit ∧ c.cyclesPerBit ≤ 524288) ∧
  (∀ (p : Platform) (port : Port) (late : Int) (check : Platform → Io),
    let c := p.sci port
    let entry : LogEntry := { port := port, byte := c.shifted.prepared, cycle := p.now }
    let logged : Platform := { p with outLog := p.outLog ++ [entry] }
    (1 < c.bitsLeft →
      bitClock check port late p =
        .ok (queued (p.setSci c.shifted port) ((bitPeriod c : Int) - late) port)) ∧
    (c.bitsLeft = 1 → c.txEmpty = true ∨ c.scr.getLsbD 5 = false →
      bitClock check port late p =
        .ok (logged.setSci { c.shifted with busy := false, tend := true } port)) ∧
    (c.bitsLeft = 1 → c.txEmpty = false → c.scr.getLsbD 5 = true →
      let started :=
        (queued (logged.setSci (loaded c.shifted) port) (bitPeriod c) port).setLine true (txLine port)
      (p.asserted (txLine port) = false → bitClock check port late p = check started) ∧
      (NoDma p → bitClock checkActivations port late p = .ok started)))

/-- The due events of a domain are exactly its queued events whose target is not after its tick counter, in
nondecreasing order of target, ties in insertion order. With the CPU's domain alone, a firing pass leaves
a platform with nothing due as it is; otherwise it takes the due events from the queue and calls their
handlers in that order, each with `now - target`, on the platform the one before left, and ends if that
leaves nothing due (60_exceptions.md R401, R404, R405). -/
def Obligations.DueEventsFireInOrder : Prop :=
  (∀ (p : Platform) (d : Nat) (now : Int), p.tick d = some now →
    (p.dueIn d).Pairwise (fun e e' => e.target ≤ e'.target) ∧
    (∀ t : Int, (p.dueIn d).filter (fun e => decide (e.target = t)) =
      p.events.filter (fun e => decide (e.domain = d) && decide (e.target = t) && decide (t ≤ now)))) ∧
  (∀ p : Platform, p.params.clockDomains = [] →
    p.dueEvents = p.dueIn 0 ∧ p.tick 0 = some (p.now : Int) ∧
    (p.dueIn 0 = [] → fireDue p = some (p, none)) ∧
    (∀ run : Nat → Platform, p.dueIn 0 ≠ [] →
      run 0 = { p with events := p.events.filter fun e =>
                        !(decide (e.domain = 0) && decide (e.target ≤ (p.now : Int))) } →
      (∀ (k : Nat) (e : Event), (p.dueIn 0)[k]? = some e →
        bitClock checkActivations e.port ((p.now : Int) - e.target) (run k) = .ok (run (k + 1))) →
      (run (p.dueIn 0).length).dueIn 0 = [] →
      fireDue p = some (run (p.dueIn 0).length, none)))
end

