-- ==== Sys2Proof/Laws/Memory.lean ====
section
/-! SUPPORT. The laws of the byte list: every operation keeps the canonical form, a read gives the last
write to the same address, and equal contents are equal lists. -/

namespace Sys2Proof.Machine

variable {u : Nat → Byte}

/-! ### The canonical form -/

theorem Memory.wfFrom_nil (lo : Nat) : Memory.wfFrom u lo [] = true := rfl

theorem Memory.wfFrom_cons {lo k : Nat} {b : Byte} {m : Memory} :
    Memory.wfFrom u lo ((k, b) :: m) = true ↔
      lo ≤ k ∧ b ≠ u k ∧ Memory.wfFrom u (k + 1) m = true := by
  simp [Memory.wfFrom, and_assoc]

/-- A lower bound may be lowered. -/
theorem Memory.wfFrom_mono {lo lo' : Nat} {m : Memory} (h : lo' ≤ lo)
    (hm : Memory.wfFrom u lo m = true) : Memory.wfFrom u lo' m = true := by
  cases m with
  | nil => rfl
  | cons c m =>
    obtain ⟨k, b⟩ := c
    rw [Memory.wfFrom_cons] at hm ⊢
    exact ⟨h.trans hm.1, hm.2⟩

/-- A write keeps the canonical form. -/
theorem Memory.write_wfFrom {lo a : Nat} {b : Byte} {m : Memory} (ha : lo ≤ a)
    (hm : Memory.wfFrom u lo m = true) : Memory.wfFrom u lo (m.write (u a) a b) = true := by
  induction m generalizing lo with
  | nil =>
    simp only [Memory.write]
    split
    · rfl
    · next h => exact Memory.wfFrom_cons.2 ⟨ha, h, rfl⟩
  | cons c m ih =>
    obtain ⟨k, c⟩ := c
    obtain ⟨hk, hc, hm⟩ := Memory.wfFrom_cons.1 hm
    simp only [Memory.write]
    split
    · next h => exact Memory.wfFrom_cons.2 ⟨hk, hc, ih h hm⟩
    split
    · next h =>
      subst h
      split
      · exact Memory.wfFrom_mono (by omega) hm
      · next h => exact Memory.wfFrom_cons.2 ⟨hk, h, hm⟩
    · split
      · exact Memory.wfFrom_cons.2 ⟨hk, hc, hm⟩
      · next h =>
        exact Memory.wfFrom_cons.2
          ⟨ha, h, Memory.wfFrom_cons.2 ⟨by omega, hc, hm⟩⟩

/-- A write keeps the canonical form. -/
theorem Memory.write_wf {a : Nat} {b : Byte} {m : Memory} (hm : m.wf u = true) :
    (m.write (u a) a b).wf u = true :=
  Memory.write_wfFrom (Nat.zero_le a) hm

/-- A write of several bytes keeps the canonical form. -/
theorem Memory.writeBytes_wf {pt : PageTable} {m : Memory} {t : Nat} {bs : List Byte}
    (hm : m.wf pt.unlisted = true) : (m.writeBytes pt t bs).wf pt.unlisted = true := by
  induction bs generalizing m t with
  | nil => exact hm
  | cons b bs ih => exact ih (Memory.write_wf hm)

/-- Whatever the host loads, the storage is in canonical form. -/
theorem Memory.load_wf (pt : PageTable) (image : List Host.Cell) :
    (Memory.load pt image).wf pt.unlisted = true := by
  have h : ∀ m : Memory, m.wf pt.unlisted = true →
      (image.foldl (fun m c => m.write (pt.unlisted c.1) c.1 c.2) m : Memory).wf pt.unlisted =
        true := by
    induction image with
    | nil => exact fun m hm => hm
    | cons c l ih => exact fun m hm => ih _ (Memory.write_wf hm)
  exact h [] rfl

/-! ### Reading after writing -/

/-- Below every listed address, a memory reads as unlisted. -/
theorem Memory.read_of_lt {lo a : Nat} {m : Memory} (h : a < lo)
    (hm : Memory.wfFrom u lo m = true) (x : Byte) : m.read x a = x := by
  cases m with
  | nil => rfl
  | cons c m =>
    obtain ⟨k, b⟩ := c
    have hk := (Memory.wfFrom_cons.1 hm).1
    simp only [Memory.read]
    rw [if_neg (by omega), if_pos (by omega)]

/-- A read after a write gives what was written at that address, and what was there at another. -/
theorem Memory.read_write_from {lo a a' : Nat} {b x : Byte} {m : Memory} (hx : x = u a')
    (hm : Memory.wfFrom u lo m = true) :
    (m.write (u a) a b).read x a' = if a' = a then b else m.read x a' := by
  subst hx
  induction m generalizing lo with
  | nil =>
    simp only [Memory.write]
    split
    · next h =>
      subst h
      simp only [Memory.read]
      split
      · next h => subst h; rfl
      · rfl
    · simp only [Memory.read]
      split
      · next h => simp [h]
      · next h => simp [show ¬ a' = a from fun e => h e.symm]
  | cons c m ih =>
    obtain ⟨k, c⟩ := c
    obtain ⟨hk, hc, hm⟩ := Memory.wfFrom_cons.1 hm
    have low : ∀ j, j ≤ k → Memory.read (u j) j m = u j := fun j hj =>
      Memory.read_of_lt (by omega) hm _
    simp only [Memory.write]
    split
    · next h =>
      simp only [Memory.read, ih hm]
      by_cases e : k = a'
      · simp [e, show a' ≠ a by omega]
      · simp only [e, if_false]
        by_cases e' : a' < k
        · simp [e', show a' ≠ a by omega]
        · simp [e']
    split
    · next h =>
      subst h
      split
      · next h =>
        subst h
        by_cases e : a' = k
        · subst e; simp [low a' le_rfl]
        · simp only [Memory.read, e, show ¬ k = a' from fun e' => e e'.symm, if_false]
          split
          · next h => exact low a' (by omega)
          · rfl
      · next h =>
        simp only [Memory.read]
        by_cases e : a' = k
        · simp [e]
        · simp [e, show ¬ k = a' from fun e' => e e'.symm]
    · next h h' =>
      split
      · next h =>
        subst h
        by_cases e : a' = a
        · subst e
          simp [Memory.read, h', show a' < k by omega]
        · simp [e]
      · simp only [Memory.read]
        by_cases e : a' = a
        · simp [e]
        · simp only [e, show ¬ a = a' from fun e' => e e'.symm, if_false]
          split
          · next h => simp [show k ≠ a' by omega, show a' < k by omega]
          · rfl

/-- A read after a write gives what was written at that address, and what was there at another. -/
theorem Memory.read_write {a a' : Nat} {b : Byte} {m : Memory} (hm : m.wf u = true) :
    (m.write (u a) a b).read (u a') a' = if a' = a then b else m.read (u a') a' :=
  Memory.read_write_from rfl hm

/-- A read after a write of several bytes. -/
theorem Memory.read_writeBytes {pt : PageTable} {m : Memory} {t a : Nat} {bs : List Byte}
    (hm : m.wf pt.unlisted = true) :
    (m.writeBytes pt t bs).read (pt.unlisted a) a =
      if t ≤ a ∧ a < t + bs.length then bs.getD (a - t) 0 else m.read (pt.unlisted a) a := by
  induction bs generalizing m t with
  | nil => simp [Memory.writeBytes]
  | cons b bs ih =>
    rw [Memory.writeBytes, ih (Memory.write_wf hm), Memory.read_write hm]
    simp only [List.length_cons]
    by_cases h : t + 1 ≤ a ∧ a < t + 1 + bs.length
    · have e : a - t = (a - (t + 1)) + 1 := by omega
      rw [if_pos h, if_pos (by omega), e, List.getD_cons_succ]
    · rw [if_neg h]
      by_cases e : a = t
      · subst e; rw [if_pos rfl, if_pos (by omega)]; simp
      · rw [if_neg e, if_neg (by omega)]

/-- Two memories in canonical form that read alike everywhere are equal. -/
theorem Memory.ext_read_from {lo : Nat} {m m' : Memory} (hm : Memory.wfFrom u lo m = true)
    (hm' : Memory.wfFrom u lo m' = true) (h : ∀ a, m.read (u a) a = m'.read (u a) a) : m = m' := by
  induction m generalizing lo m' with
  | nil =>
    cases m' with
    | nil => rfl
    | cons c m' =>
      obtain ⟨k, b⟩ := c
      have := h k
      simp [Memory.read] at this
      exact absurd this.symm (Memory.wfFrom_cons.1 hm').2.1
  | cons c m ih =>
    obtain ⟨k, b⟩ := c
    obtain ⟨hk, hb, hm⟩ := Memory.wfFrom_cons.1 hm
    cases m' with
    | nil =>
      have := h k
      simp [Memory.read] at this
      exact absurd this hb
    | cons c' m' =>
      obtain ⟨k', b'⟩ := c'
      obtain ⟨hk', hb', hn⟩ := Memory.wfFrom_cons.1 hm'
      have key : k = k' := by
        rcases Nat.lt_trichotomy k k' with e | e | e
        · have := h k
          simp [Memory.read, show ¬ k' = k by omega, e] at this
          exact absurd this hb
        · exact e
        · have := h k'
          simp [Memory.read, show ¬ k = k' by omega, e] at this
          exact absurd this.symm hb'
      subst key
      have hv : b = b' := by simpa [Memory.read] using h k
      subst hv
      congr 1
      refine ih hm hn fun a => ?_
      rcases Nat.lt_or_ge k a with e | e
      · have := h a
        simpa [Memory.read, show ¬ k = a by omega, show ¬ a < k by omega] using this
      · rw [Memory.read_of_lt (by omega) hm, Memory.read_of_lt (by omega) hn]

end Sys2Proof.Machine
end

