-- ==== Sys2Proof/Laws/State.lean ====
section
/-! SUPPORT. What each update of the state does to each field: one lemma per field per update, so that
no later proof unfolds a record update. -/

namespace Sys2Proof.Machine

variable (s : State)

/-! ### `State.setReg` -/

@[simp] theorem State.setReg_regs (n : Reg) (v : Word) :
    (s.setReg n v).regs = s.regs.set n.toNat v n.isLt := rfl
@[simp] theorem State.setReg_pc (n : Reg) (v : Word) : (s.setReg n v).pc = s.pc := rfl
@[simp] theorem State.setReg_pr (n : Reg) (v : Word) : (s.setReg n v).pr = s.pr := rfl
@[simp] theorem State.setReg_gbr (n : Reg) (v : Word) : (s.setReg n v).gbr = s.gbr := rfl
@[simp] theorem State.setReg_vbr (n : Reg) (v : Word) : (s.setReg n v).vbr = s.vbr := rfl
@[simp] theorem State.setReg_mach (n : Reg) (v : Word) : (s.setReg n v).mach = s.mach := rfl
@[simp] theorem State.setReg_macl (n : Reg) (v : Word) : (s.setReg n v).macl = s.macl := rfl
@[simp] theorem State.setReg_sr (n : Reg) (v : Word) : (s.setReg n v).sr = s.sr := rfl
@[simp] theorem State.setReg_pipe (n : Reg) (v : Word) : (s.setReg n v).pipe = s.pipe := rfl
@[simp] theorem State.setReg_inDelaySlot (n : Reg) (v : Word) :
    (s.setReg n v).inDelaySlot = s.inDelaySlot := rfl
@[simp] theorem State.setReg_inNoIntSlot (n : Reg) (v : Word) :
    (s.setReg n v).inNoIntSlot = s.inNoIntSlot := rfl
@[simp] theorem State.setReg_pending (n : Reg) (v : Word) :
    (s.setReg n v).pending = s.pending := rfl
@[simp] theorem State.setReg_pendingAddressError (n : Reg) (v : Word) :
    (s.setReg n v).pendingAddressError = s.pendingAddressError := rfl
@[simp] theorem State.setReg_sleeping (n : Reg) (v : Word) :
    (s.setReg n v).sleeping = s.sleeping := rfl
@[simp] theorem State.setReg_fault (n : Reg) (v : Word) : (s.setReg n v).fault = s.fault := rfl
@[simp] theorem State.setReg_fetchWait (n : Reg) (v : Word) :
    (s.setReg n v).fetchWait = s.fetchWait := rfl
@[simp] theorem State.setReg_execWait (n : Reg) (v : Word) :
    (s.setReg n v).execWait = s.execWait := rfl
@[simp] theorem State.setReg_curAddr (n : Reg) (v : Word) :
    (s.setReg n v).curAddr = s.curAddr := rfl
@[simp] theorem State.setReg_curWord (n : Reg) (v : Word) :
    (s.setReg n v).curWord = s.curWord := rfl
@[simp] theorem State.setReg_plat (n : Reg) (v : Word) : (s.setReg n v).plat = s.plat := rfl

/-! ### `State.setPc` -/

@[simp] theorem State.setPc_regs (v : Word) : (s.setPc v).regs = s.regs := rfl
@[simp] theorem State.setPc_pc (v : Word) : (s.setPc v).pc = v := rfl
@[simp] theorem State.setPc_pr (v : Word) : (s.setPc v).pr = s.pr := rfl
@[simp] theorem State.setPc_gbr (v : Word) : (s.setPc v).gbr = s.gbr := rfl
@[simp] theorem State.setPc_vbr (v : Word) : (s.setPc v).vbr = s.vbr := rfl
@[simp] theorem State.setPc_mach (v : Word) : (s.setPc v).mach = s.mach := rfl
@[simp] theorem State.setPc_macl (v : Word) : (s.setPc v).macl = s.macl := rfl
@[simp] theorem State.setPc_sr (v : Word) : (s.setPc v).sr = s.sr := rfl
@[simp] theorem State.setPc_pipe (v : Word) : (s.setPc v).pipe = s.pipe := rfl
@[simp] theorem State.setPc_inDelaySlot (v : Word) : (s.setPc v).inDelaySlot = s.inDelaySlot := rfl
@[simp] theorem State.setPc_inNoIntSlot (v : Word) : (s.setPc v).inNoIntSlot = s.inNoIntSlot := rfl
@[simp] theorem State.setPc_pending (v : Word) : (s.setPc v).pending = s.pending := rfl
@[simp] theorem State.setPc_pendingAddressError (v : Word) :
    (s.setPc v).pendingAddressError = s.pendingAddressError := rfl
@[simp] theorem State.setPc_sleeping (v : Word) : (s.setPc v).sleeping = s.sleeping := rfl
@[simp] theorem State.setPc_fault (v : Word) : (s.setPc v).fault = s.fault := rfl
@[simp] theorem State.setPc_fetchWait (v : Word) : (s.setPc v).fetchWait = s.fetchWait := rfl
@[simp] theorem State.setPc_execWait (v : Word) : (s.setPc v).execWait = s.execWait := rfl
@[simp] theorem State.setPc_curAddr (v : Word) : (s.setPc v).curAddr = s.curAddr := rfl
@[simp] theorem State.setPc_curWord (v : Word) : (s.setPc v).curWord = s.curWord := rfl
@[simp] theorem State.setPc_plat (v : Word) : (s.setPc v).plat = s.plat := rfl
@[simp] theorem State.setPc_reg (v : Word) (r : Reg) : (s.setPc v).reg r = s.reg r := rfl

/-! ### `State.setPr` -/

@[simp] theorem State.setPr_regs (v : Word) : (s.setPr v).regs = s.regs := rfl
@[simp] theorem State.setPr_pc (v : Word) : (s.setPr v).pc = s.pc := rfl
@[simp] theorem State.setPr_pr (v : Word) : (s.setPr v).pr = v := rfl
@[simp] theorem State.setPr_gbr (v : Word) : (s.setPr v).gbr = s.gbr := rfl
@[simp] theorem State.setPr_vbr (v : Word) : (s.setPr v).vbr = s.vbr := rfl
@[simp] theorem State.setPr_mach (v : Word) : (s.setPr v).mach = s.mach := rfl
@[simp] theorem State.setPr_macl (v : Word) : (s.setPr v).macl = s.macl := rfl
@[simp] theorem State.setPr_sr (v : Word) : (s.setPr v).sr = s.sr := rfl
@[simp] theorem State.setPr_pipe (v : Word) : (s.setPr v).pipe = s.pipe := rfl
@[simp] theorem State.setPr_inDelaySlot (v : Word) : (s.setPr v).inDelaySlot = s.inDelaySlot := rfl
@[simp] theorem State.setPr_inNoIntSlot (v : Word) : (s.setPr v).inNoIntSlot = s.inNoIntSlot := rfl
@[simp] theorem State.setPr_pending (v : Word) : (s.setPr v).pending = s.pending := rfl
@[simp] theorem State.setPr_pendingAddressError (v : Word) :
    (s.setPr v).pendingAddressError = s.pendingAddressError := rfl
@[simp] theorem State.setPr_sleeping (v : Word) : (s.setPr v).sleeping = s.sleeping := rfl
@[simp] theorem State.setPr_fault (v : Word) : (s.setPr v).fault = s.fault := rfl
@[simp] theorem State.setPr_fetchWait (v : Word) : (s.setPr v).fetchWait = s.fetchWait := rfl
@[simp] theorem State.setPr_execWait (v : Word) : (s.setPr v).execWait = s.execWait := rfl
@[simp] theorem State.setPr_curAddr (v : Word) : (s.setPr v).curAddr = s.curAddr := rfl
@[simp] theorem State.setPr_curWord (v : Word) : (s.setPr v).curWord = s.curWord := rfl
@[simp] theorem State.setPr_plat (v : Word) : (s.setPr v).plat = s.plat := rfl
@[simp] theorem State.setPr_reg (v : Word) (r : Reg) : (s.setPr v).reg r = s.reg r := rfl

/-! ### `State.setGbr` -/

@[simp] theorem State.setGbr_regs (v : Word) : (s.setGbr v).regs = s.regs := rfl
@[simp] theorem State.setGbr_pc (v : Word) : (s.setGbr v).pc = s.pc := rfl
@[simp] theorem State.setGbr_pr (v : Word) : (s.setGbr v).pr = s.pr := rfl
@[simp] theorem State.setGbr_gbr (v : Word) : (s.setGbr v).gbr = v := rfl
@[simp] theorem State.setGbr_vbr (v : Word) : (s.setGbr v).vbr = s.vbr := rfl
@[simp] theorem State.setGbr_mach (v : Word) : (s.setGbr v).mach = s.mach := rfl
@[simp] theorem State.setGbr_macl (v : Word) : (s.setGbr v).macl = s.macl := rfl
@[simp] theorem State.setGbr_sr (v : Word) : (s.setGbr v).sr = s.sr := rfl
@[simp] theorem State.setGbr_pipe (v : Word) : (s.setGbr v).pipe = s.pipe := rfl
@[simp] theorem State.setGbr_inDelaySlot (v : Word) :
    (s.setGbr v).inDelaySlot = s.inDelaySlot := rfl
@[simp] theorem State.setGbr_inNoIntSlot (v : Word) :
    (s.setGbr v).inNoIntSlot = s.inNoIntSlot := rfl
@[simp] theorem State.setGbr_pending (v : Word) : (s.setGbr v).pending = s.pending := rfl
@[simp] theorem State.setGbr_pendingAddressError (v : Word) :
    (s.setGbr v).pendingAddressError = s.pendingAddressError := rfl
@[simp] theorem State.setGbr_sleeping (v : Word) : (s.setGbr v).sleeping = s.sleeping := rfl
@[simp] theorem State.setGbr_fault (v : Word) : (s.setGbr v).fault = s.fault := rfl
@[simp] theorem State.setGbr_fetchWait (v : Word) : (s.setGbr v).fetchWait = s.fetchWait := rfl
@[simp] theorem State.setGbr_execWait (v : Word) : (s.setGbr v).execWait = s.execWait := rfl
@[simp] theorem State.setGbr_curAddr (v : Word) : (s.setGbr v).curAddr = s.curAddr := rfl
@[simp] theorem State.setGbr_curWord (v : Word) : (s.setGbr v).curWord = s.curWord := rfl
@[simp] theorem State.setGbr_plat (v : Word) : (s.setGbr v).plat = s.plat := rfl
@[simp] theorem State.setGbr_reg (v : Word) (r : Reg) : (s.setGbr v).reg r = s.reg r := rfl

/-! ### `State.setVbr` -/

@[simp] theorem State.setVbr_regs (v : Word) : (s.setVbr v).regs = s.regs := rfl
@[simp] theorem State.setVbr_pc (v : Word) : (s.setVbr v).pc = s.pc := rfl
@[simp] theorem State.setVbr_pr (v : Word) : (s.setVbr v).pr = s.pr := rfl
@[simp] theorem State.setVbr_gbr (v : Word) : (s.setVbr v).gbr = s.gbr := rfl
@[simp] theorem State.setVbr_vbr (v : Word) : (s.setVbr v).vbr = v := rfl
@[simp] theorem State.setVbr_mach (v : Word) : (s.setVbr v).mach = s.mach := rfl
@[simp] theorem State.setVbr_macl (v : Word) : (s.setVbr v).macl = s.macl := rfl
@[simp] theorem State.setVbr_sr (v : Word) : (s.setVbr v).sr = s.sr := rfl
@[simp] theorem State.setVbr_pipe (v : Word) : (s.setVbr v).pipe = s.pipe := rfl
@[simp] theorem State.setVbr_inDelaySlot (v : Word) :
    (s.setVbr v).inDelaySlot = s.inDelaySlot := rfl
@[simp] theorem State.setVbr_inNoIntSlot (v : Word) :
    (s.setVbr v).inNoIntSlot = s.inNoIntSlot := rfl
@[simp] theorem State.setVbr_pending (v : Word) : (s.setVbr v).pending = s.pending := rfl
@[simp] theorem State.setVbr_pendingAddressError (v : Word) :
    (s.setVbr v).pendingAddressError = s.pendingAddressError := rfl
@[simp] theorem State.setVbr_sleeping (v : Word) : (s.setVbr v).sleeping = s.sleeping := rfl
@[simp] theorem State.setVbr_fault (v : Word) : (s.setVbr v).fault = s.fault := rfl
@[simp] theorem State.setVbr_fetchWait (v : Word) : (s.setVbr v).fetchWait = s.fetchWait := rfl
@[simp] theorem State.setVbr_execWait (v : Word) : (s.setVbr v).execWait = s.execWait := rfl
@[simp] theorem State.setVbr_curAddr (v : Word) : (s.setVbr v).curAddr = s.curAddr := rfl
@[simp] theorem State.setVbr_curWord (v : Word) : (s.setVbr v).curWord = s.curWord := rfl
@[simp] theorem State.setVbr_plat (v : Word) : (s.setVbr v).plat = s.plat := rfl
@[simp] theorem State.setVbr_reg (v : Word) (r : Reg) : (s.setVbr v).reg r = s.reg r := rfl

/-! ### `State.setMacl` -/

@[simp] theorem State.setMacl_regs (v : Word) : (s.setMacl v).regs = s.regs := rfl
@[simp] theorem State.setMacl_pc (v : Word) : (s.setMacl v).pc = s.pc := rfl
@[simp] theorem State.setMacl_pr (v : Word) : (s.setMacl v).pr = s.pr := rfl
@[simp] theorem State.setMacl_gbr (v : Word) : (s.setMacl v).gbr = s.gbr := rfl
@[simp] theorem State.setMacl_vbr (v : Word) : (s.setMacl v).vbr = s.vbr := rfl
@[simp] theorem State.setMacl_mach (v : Word) : (s.setMacl v).mach = s.mach := rfl
@[simp] theorem State.setMacl_macl (v : Word) : (s.setMacl v).macl = v := rfl
@[simp] theorem State.setMacl_sr (v : Word) : (s.setMacl v).sr = s.sr := rfl
@[simp] theorem State.setMacl_pipe (v : Word) : (s.setMacl v).pipe = s.pipe := rfl
@[simp] theorem State.setMacl_inDelaySlot (v : Word) :
    (s.setMacl v).inDelaySlot = s.inDelaySlot := rfl
@[simp] theorem State.setMacl_inNoIntSlot (v : Word) :
    (s.setMacl v).inNoIntSlot = s.inNoIntSlot := rfl
@[simp] theorem State.setMacl_pending (v : Word) : (s.setMacl v).pending = s.pending := rfl
@[simp] theorem State.setMacl_pendingAddressError (v : Word) :
    (s.setMacl v).pendingAddressError = s.pendingAddressError := rfl
@[simp] theorem State.setMacl_sleeping (v : Word) : (s.setMacl v).sleeping = s.sleeping := rfl
@[simp] theorem State.setMacl_fault (v : Word) : (s.setMacl v).fault = s.fault := rfl
@[simp] theorem State.setMacl_fetchWait (v : Word) : (s.setMacl v).fetchWait = s.fetchWait := rfl
@[simp] theorem State.setMacl_execWait (v : Word) : (s.setMacl v).execWait = s.execWait := rfl
@[simp] theorem State.setMacl_curAddr (v : Word) : (s.setMacl v).curAddr = s.curAddr := rfl
@[simp] theorem State.setMacl_curWord (v : Word) : (s.setMacl v).curWord = s.curWord := rfl
@[simp] theorem State.setMacl_plat (v : Word) : (s.setMacl v).plat = s.plat := rfl
@[simp] theorem State.setMacl_reg (v : Word) (r : Reg) : (s.setMacl v).reg r = s.reg r := rfl

/-! ### `State.setSr` -/

@[simp] theorem State.setSr_regs (v : Word) : (s.setSr v).regs = s.regs := rfl
@[simp] theorem State.setSr_pc (v : Word) : (s.setSr v).pc = s.pc := rfl
@[simp] theorem State.setSr_pr (v : Word) : (s.setSr v).pr = s.pr := rfl
@[simp] theorem State.setSr_gbr (v : Word) : (s.setSr v).gbr = s.gbr := rfl
@[simp] theorem State.setSr_vbr (v : Word) : (s.setSr v).vbr = s.vbr := rfl
@[simp] theorem State.setSr_mach (v : Word) : (s.setSr v).mach = s.mach := rfl
@[simp] theorem State.setSr_macl (v : Word) : (s.setSr v).macl = s.macl := rfl
@[simp] theorem State.setSr_sr (v : Word) : (s.setSr v).sr = StatusReg.ofWord v := rfl
@[simp] theorem State.setSr_pipe (v : Word) : (s.setSr v).pipe = s.pipe := rfl
@[simp] theorem State.setSr_inDelaySlot (v : Word) : (s.setSr v).inDelaySlot = s.inDelaySlot := rfl
@[simp] theorem State.setSr_inNoIntSlot (v : Word) : (s.setSr v).inNoIntSlot = s.inNoIntSlot := rfl
@[simp] theorem State.setSr_pending (v : Word) : (s.setSr v).pending = s.pending := rfl
@[simp] theorem State.setSr_pendingAddressError (v : Word) :
    (s.setSr v).pendingAddressError = s.pendingAddressError := rfl
@[simp] theorem State.setSr_sleeping (v : Word) : (s.setSr v).sleeping = s.sleeping := rfl
@[simp] theorem State.setSr_fault (v : Word) : (s.setSr v).fault = s.fault := rfl
@[simp] theorem State.setSr_fetchWait (v : Word) : (s.setSr v).fetchWait = s.fetchWait := rfl
@[simp] theorem State.setSr_execWait (v : Word) : (s.setSr v).execWait = s.execWait := rfl
@[simp] theorem State.setSr_curAddr (v : Word) : (s.setSr v).curAddr = s.curAddr := rfl
@[simp] theorem State.setSr_curWord (v : Word) : (s.setSr v).curWord = s.curWord := rfl
@[simp] theorem State.setSr_plat (v : Word) : (s.setSr v).plat = s.plat := rfl
@[simp] theorem State.setSr_reg (v : Word) (r : Reg) : (s.setSr v).reg r = s.reg r := rfl

/-! ### `State.setT` -/

@[simp] theorem State.setT_regs (b : Bool) : (s.setT b).regs = s.regs := rfl
@[simp] theorem State.setT_pc (b : Bool) : (s.setT b).pc = s.pc := rfl
@[simp] theorem State.setT_pr (b : Bool) : (s.setT b).pr = s.pr := rfl
@[simp] theorem State.setT_gbr (b : Bool) : (s.setT b).gbr = s.gbr := rfl
@[simp] theorem State.setT_vbr (b : Bool) : (s.setT b).vbr = s.vbr := rfl
@[simp] theorem State.setT_mach (b : Bool) : (s.setT b).mach = s.mach := rfl
@[simp] theorem State.setT_macl (b : Bool) : (s.setT b).macl = s.macl := rfl
@[simp] theorem State.setT_sr (b : Bool) : (s.setT b).sr = { s.sr with t := b } := rfl
@[simp] theorem State.setT_pipe (b : Bool) : (s.setT b).pipe = s.pipe := rfl
@[simp] theorem State.setT_inDelaySlot (b : Bool) : (s.setT b).inDelaySlot = s.inDelaySlot := rfl
@[simp] theorem State.setT_inNoIntSlot (b : Bool) : (s.setT b).inNoIntSlot = s.inNoIntSlot := rfl
@[simp] theorem State.setT_pending (b : Bool) : (s.setT b).pending = s.pending := rfl
@[simp] theorem State.setT_pendingAddressError (b : Bool) :
    (s.setT b).pendingAddressError = s.pendingAddressError := rfl
@[simp] theorem State.setT_sleeping (b : Bool) : (s.setT b).sleeping = s.sleeping := rfl
@[simp] theorem State.setT_fault (b : Bool) : (s.setT b).fault = s.fault := rfl
@[simp] theorem State.setT_fetchWait (b : Bool) : (s.setT b).fetchWait = s.fetchWait := rfl
@[simp] theorem State.setT_execWait (b : Bool) : (s.setT b).execWait = s.execWait := rfl
@[simp] theorem State.setT_curAddr (b : Bool) : (s.setT b).curAddr = s.curAddr := rfl
@[simp] theorem State.setT_curWord (b : Bool) : (s.setT b).curWord = s.curWord := rfl
@[simp] theorem State.setT_plat (b : Bool) : (s.setT b).plat = s.plat := rfl
@[simp] theorem State.setT_reg (b : Bool) (r : Reg) : (s.setT b).reg r = s.reg r := rfl

/-! ### `State.setQT` -/

@[simp] theorem State.setQT_regs (q t : Bool) : (s.setQT q t).regs = s.regs := rfl
@[simp] theorem State.setQT_pc (q t : Bool) : (s.setQT q t).pc = s.pc := rfl
@[simp] theorem State.setQT_pr (q t : Bool) : (s.setQT q t).pr = s.pr := rfl
@[simp] theorem State.setQT_gbr (q t : Bool) : (s.setQT q t).gbr = s.gbr := rfl
@[simp] theorem State.setQT_vbr (q t : Bool) : (s.setQT q t).vbr = s.vbr := rfl
@[simp] theorem State.setQT_mach (q t : Bool) : (s.setQT q t).mach = s.mach := rfl
@[simp] theorem State.setQT_macl (q t : Bool) : (s.setQT q t).macl = s.macl := rfl
@[simp] theorem State.setQT_sr (q t : Bool) : (s.setQT q t).sr = { s.sr with q := q, t := t } := rfl
@[simp] theorem State.setQT_pipe (q t : Bool) : (s.setQT q t).pipe = s.pipe := rfl
@[simp] theorem State.setQT_inDelaySlot (q t : Bool) :
    (s.setQT q t).inDelaySlot = s.inDelaySlot := rfl
@[simp] theorem State.setQT_inNoIntSlot (q t : Bool) :
    (s.setQT q t).inNoIntSlot = s.inNoIntSlot := rfl
@[simp] theorem State.setQT_pending (q t : Bool) : (s.setQT q t).pending = s.pending := rfl
@[simp] theorem State.setQT_pendingAddressError (q t : Bool) :
    (s.setQT q t).pendingAddressError = s.pendingAddressError := rfl
@[simp] theorem State.setQT_sleeping (q t : Bool) : (s.setQT q t).sleeping = s.sleeping := rfl
@[simp] theorem State.setQT_fault (q t : Bool) : (s.setQT q t).fault = s.fault := rfl
@[simp] theorem State.setQT_fetchWait (q t : Bool) : (s.setQT q t).fetchWait = s.fetchWait := rfl
@[simp] theorem State.setQT_execWait (q t : Bool) : (s.setQT q t).execWait = s.execWait := rfl
@[simp] theorem State.setQT_curAddr (q t : Bool) : (s.setQT q t).curAddr = s.curAddr := rfl
@[simp] theorem State.setQT_curWord (q t : Bool) : (s.setQT q t).curWord = s.curWord := rfl
@[simp] theorem State.setQT_plat (q t : Bool) : (s.setQT q t).plat = s.plat := rfl
@[simp] theorem State.setQT_reg (q t : Bool) (r : Reg) : (s.setQT q t).reg r = s.reg r := rfl

/-! ### `State.setMQT` -/

@[simp] theorem State.setMQT_regs (m q t : Bool) : (s.setMQT m q t).regs = s.regs := rfl
@[simp] theorem State.setMQT_pc (m q t : Bool) : (s.setMQT m q t).pc = s.pc := rfl
@[simp] theorem State.setMQT_pr (m q t : Bool) : (s.setMQT m q t).pr = s.pr := rfl
@[simp] theorem State.setMQT_gbr (m q t : Bool) : (s.setMQT m q t).gbr = s.gbr := rfl
@[simp] theorem State.setMQT_vbr (m q t : Bool) : (s.setMQT m q t).vbr = s.vbr := rfl
@[simp] theorem State.setMQT_mach (m q t : Bool) : (s.setMQT m q t).mach = s.mach := rfl
@[simp] theorem State.setMQT_macl (m q t : Bool) : (s.setMQT m q t).macl = s.macl := rfl
@[simp] theorem State.setMQT_sr (m q t : Bool) :
    (s.setMQT m q t).sr = { s.sr with m := m, q := q, t := t } := rfl
@[simp] theorem State.setMQT_pipe (m q t : Bool) : (s.setMQT m q t).pipe = s.pipe := rfl
@[simp] theorem State.setMQT_inDelaySlot (m q t : Bool) :
    (s.setMQT m q t).inDelaySlot = s.inDelaySlot := rfl
@[simp] theorem State.setMQT_inNoIntSlot (m q t : Bool) :
    (s.setMQT m q t).inNoIntSlot = s.inNoIntSlot := rfl
@[simp] theorem State.setMQT_pending (m q t : Bool) : (s.setMQT m q t).pending = s.pending := rfl
@[simp] theorem State.setMQT_pendingAddressError (m q t : Bool) :
    (s.setMQT m q t).pendingAddressError = s.pendingAddressError := rfl
@[simp] theorem State.setMQT_sleeping (m q t : Bool) : (s.setMQT m q t).sleeping = s.sleeping := rfl
@[simp] theorem State.setMQT_fault (m q t : Bool) : (s.setMQT m q t).fault = s.fault := rfl
@[simp] theorem State.setMQT_fetchWait (m q t : Bool) :
    (s.setMQT m q t).fetchWait = s.fetchWait := rfl
@[simp] theorem State.setMQT_execWait (m q t : Bool) : (s.setMQT m q t).execWait = s.execWait := rfl
@[simp] theorem State.setMQT_curAddr (m q t : Bool) : (s.setMQT m q t).curAddr = s.curAddr := rfl
@[simp] theorem State.setMQT_curWord (m q t : Bool) : (s.setMQT m q t).curWord = s.curWord := rfl
@[simp] theorem State.setMQT_plat (m q t : Bool) : (s.setMQT m q t).plat = s.plat := rfl
@[simp] theorem State.setMQT_reg (m q t : Bool) (r : Reg) : (s.setMQT m q t).reg r = s.reg r := rfl

/-! ### `State.setSleeping` -/

@[simp] theorem State.setSleeping_regs (b : Bool) : (s.setSleeping b).regs = s.regs := rfl
@[simp] theorem State.setSleeping_pc (b : Bool) : (s.setSleeping b).pc = s.pc := rfl
@[simp] theorem State.setSleeping_pr (b : Bool) : (s.setSleeping b).pr = s.pr := rfl
@[simp] theorem State.setSleeping_gbr (b : Bool) : (s.setSleeping b).gbr = s.gbr := rfl
@[simp] theorem State.setSleeping_vbr (b : Bool) : (s.setSleeping b).vbr = s.vbr := rfl
@[simp] theorem State.setSleeping_mach (b : Bool) : (s.setSleeping b).mach = s.mach := rfl
@[simp] theorem State.setSleeping_macl (b : Bool) : (s.setSleeping b).macl = s.macl := rfl
@[simp] theorem State.setSleeping_sr (b : Bool) : (s.setSleeping b).sr = s.sr := rfl
@[simp] theorem State.setSleeping_pipe (b : Bool) : (s.setSleeping b).pipe = s.pipe := rfl
@[simp] theorem State.setSleeping_inDelaySlot (b : Bool) :
    (s.setSleeping b).inDelaySlot = s.inDelaySlot := rfl
@[simp] theorem State.setSleeping_inNoIntSlot (b : Bool) :
    (s.setSleeping b).inNoIntSlot = s.inNoIntSlot := rfl
@[simp] theorem State.setSleeping_pending (b : Bool) : (s.setSleeping b).pending = s.pending := rfl
@[simp] theorem State.setSleeping_pendingAddressError (b : Bool) :
    (s.setSleeping b).pendingAddressError = s.pendingAddressError := rfl
@[simp] theorem State.setSleeping_sleeping (b : Bool) : (s.setSleeping b).sleeping = b := rfl
@[simp] theorem State.setSleeping_fault (b : Bool) : (s.setSleeping b).fault = s.fault := rfl
@[simp] theorem State.setSleeping_fetchWait (b : Bool) :
    (s.setSleeping b).fetchWait = s.fetchWait := rfl
@[simp] theorem State.setSleeping_execWait (b : Bool) :
    (s.setSleeping b).execWait = s.execWait := rfl
@[simp] theorem State.setSleeping_curAddr (b : Bool) : (s.setSleeping b).curAddr = s.curAddr := rfl
@[simp] theorem State.setSleeping_curWord (b : Bool) : (s.setSleeping b).curWord = s.curWord := rfl
@[simp] theorem State.setSleeping_plat (b : Bool) : (s.setSleeping b).plat = s.plat := rfl
@[simp] theorem State.setSleeping_reg (b : Bool) (r : Reg) :
    (s.setSleeping b).reg r = s.reg r := rfl

/-! ### `State.flush` -/

@[simp] theorem State.flush_regs : s.flush.regs = s.regs := rfl
@[simp] theorem State.flush_pc : s.flush.pc = s.pc := rfl
@[simp] theorem State.flush_pr : s.flush.pr = s.pr := rfl
@[simp] theorem State.flush_gbr : s.flush.gbr = s.gbr := rfl
@[simp] theorem State.flush_vbr : s.flush.vbr = s.vbr := rfl
@[simp] theorem State.flush_mach : s.flush.mach = s.mach := rfl
@[simp] theorem State.flush_macl : s.flush.macl = s.macl := rfl
@[simp] theorem State.flush_sr : s.flush.sr = s.sr := rfl
@[simp] theorem State.flush_pipe : s.flush.pipe = { s.pipe with valid := false } := rfl
@[simp] theorem State.flush_inDelaySlot : s.flush.inDelaySlot = s.inDelaySlot := rfl
@[simp] theorem State.flush_inNoIntSlot : s.flush.inNoIntSlot = s.inNoIntSlot := rfl
@[simp] theorem State.flush_pending : s.flush.pending = s.pending := rfl
@[simp] theorem State.flush_pendingAddressError :
    s.flush.pendingAddressError = s.pendingAddressError := rfl
@[simp] theorem State.flush_sleeping : s.flush.sleeping = s.sleeping := rfl
@[simp] theorem State.flush_fault : s.flush.fault = s.fault := rfl
@[simp] theorem State.flush_fetchWait : s.flush.fetchWait = s.fetchWait := rfl
@[simp] theorem State.flush_execWait : s.flush.execWait = s.execWait := rfl
@[simp] theorem State.flush_curAddr : s.flush.curAddr = s.curAddr := rfl
@[simp] theorem State.flush_curWord : s.flush.curWord = s.curWord := rfl
@[simp] theorem State.flush_plat : s.flush.plat = s.plat := rfl
@[simp] theorem State.flush_reg (r : Reg) : s.flush.reg r = s.reg r := rfl

/-! ### `State.charge` -/

@[simp] theorem State.charge_regs (p : Platform) (k : Nat) : (s.charge p k).regs = s.regs := rfl
@[simp] theorem State.charge_pc (p : Platform) (k : Nat) : (s.charge p k).pc = s.pc := rfl
@[simp] theorem State.charge_pr (p : Platform) (k : Nat) : (s.charge p k).pr = s.pr := rfl
@[simp] theorem State.charge_gbr (p : Platform) (k : Nat) : (s.charge p k).gbr = s.gbr := rfl
@[simp] theorem State.charge_vbr (p : Platform) (k : Nat) : (s.charge p k).vbr = s.vbr := rfl
@[simp] theorem State.charge_mach (p : Platform) (k : Nat) : (s.charge p k).mach = s.mach := rfl
@[simp] theorem State.charge_macl (p : Platform) (k : Nat) : (s.charge p k).macl = s.macl := rfl
@[simp] theorem State.charge_sr (p : Platform) (k : Nat) : (s.charge p k).sr = s.sr := rfl
@[simp] theorem State.charge_pipe (p : Platform) (k : Nat) : (s.charge p k).pipe = s.pipe := rfl
@[simp] theorem State.charge_inDelaySlot (p : Platform) (k : Nat) :
    (s.charge p k).inDelaySlot = s.inDelaySlot := rfl
@[simp] theorem State.charge_inNoIntSlot (p : Platform) (k : Nat) :
    (s.charge p k).inNoIntSlot = s.inNoIntSlot := rfl
@[simp] theorem State.charge_pending (p : Platform) (k : Nat) :
    (s.charge p k).pending = s.pending := rfl
@[simp] theorem State.charge_pendingAddressError (p : Platform) (k : Nat) :
    (s.charge p k).pendingAddressError = s.pendingAddressError := rfl
@[simp] theorem State.charge_sleeping (p : Platform) (k : Nat) :
    (s.charge p k).sleeping = s.sleeping := rfl
@[simp] theorem State.charge_fault (p : Platform) (k : Nat) : (s.charge p k).fault = s.fault := rfl
@[simp] theorem State.charge_fetchWait (p : Platform) (k : Nat) :
    (s.charge p k).fetchWait = s.fetchWait := rfl
@[simp] theorem State.charge_execWait (p : Platform) (k : Nat) :
    (s.charge p k).execWait = s.execWait + k := rfl
@[simp] theorem State.charge_curAddr (p : Platform) (k : Nat) :
    (s.charge p k).curAddr = s.curAddr := rfl
@[simp] theorem State.charge_curWord (p : Platform) (k : Nat) :
    (s.charge p k).curWord = s.curWord := rfl
@[simp] theorem State.charge_plat (p : Platform) (k : Nat) : (s.charge p k).plat = p := rfl
@[simp] theorem State.charge_reg (p : Platform) (k : Nat) (r : Reg) :
    (s.charge p k).reg r = s.reg r := rfl

/-! ### `State.setPlat` -/

@[simp] theorem State.setPlat_regs (p : Platform) : (s.setPlat p).regs = s.regs := rfl
@[simp] theorem State.setPlat_pc (p : Platform) : (s.setPlat p).pc = s.pc := rfl
@[simp] theorem State.setPlat_pr (p : Platform) : (s.setPlat p).pr = s.pr := rfl
@[simp] theorem State.setPlat_gbr (p : Platform) : (s.setPlat p).gbr = s.gbr := rfl
@[simp] theorem State.setPlat_vbr (p : Platform) : (s.setPlat p).vbr = s.vbr := rfl
@[simp] theorem State.setPlat_mach (p : Platform) : (s.setPlat p).mach = s.mach := rfl
@[simp] theorem State.setPlat_macl (p : Platform) : (s.setPlat p).macl = s.macl := rfl
@[simp] theorem State.setPlat_sr (p : Platform) : (s.setPlat p).sr = s.sr := rfl
@[simp] theorem State.setPlat_pipe (p : Platform) : (s.setPlat p).pipe = s.pipe := rfl
@[simp] theorem State.setPlat_inDelaySlot (p : Platform) :
    (s.setPlat p).inDelaySlot = s.inDelaySlot := rfl
@[simp] theorem State.setPlat_inNoIntSlot (p : Platform) :
    (s.setPlat p).inNoIntSlot = s.inNoIntSlot := rfl
@[simp] theorem State.setPlat_pending (p : Platform) : (s.setPlat p).pending = s.pending := rfl
@[simp] theorem State.setPlat_pendingAddressError (p : Platform) :
    (s.setPlat p).pendingAddressError = s.pendingAddressError := rfl
@[simp] theorem State.setPlat_sleeping (p : Platform) : (s.setPlat p).sleeping = s.sleeping := rfl
@[simp] theorem State.setPlat_fault (p : Platform) : (s.setPlat p).fault = s.fault := rfl
@[simp] theorem State.setPlat_fetchWait (p : Platform) :
    (s.setPlat p).fetchWait = s.fetchWait := rfl
@[simp] theorem State.setPlat_execWait (p : Platform) : (s.setPlat p).execWait = s.execWait := rfl
@[simp] theorem State.setPlat_curAddr (p : Platform) : (s.setPlat p).curAddr = s.curAddr := rfl
@[simp] theorem State.setPlat_curWord (p : Platform) : (s.setPlat p).curWord = s.curWord := rfl
@[simp] theorem State.setPlat_plat (p : Platform) : (s.setPlat p).plat = p := rfl
@[simp] theorem State.setPlat_reg (p : Platform) (r : Reg) : (s.setPlat p).reg r = s.reg r := rfl

/-! ### `State.delay` -/

@[simp] theorem State.delay_regs (k : Nat) : (s.delay k).regs = s.regs := rfl
@[simp] theorem State.delay_pc (k : Nat) : (s.delay k).pc = s.pc := rfl
@[simp] theorem State.delay_pr (k : Nat) : (s.delay k).pr = s.pr := rfl
@[simp] theorem State.delay_gbr (k : Nat) : (s.delay k).gbr = s.gbr := rfl
@[simp] theorem State.delay_vbr (k : Nat) : (s.delay k).vbr = s.vbr := rfl
@[simp] theorem State.delay_mach (k : Nat) : (s.delay k).mach = s.mach := rfl
@[simp] theorem State.delay_macl (k : Nat) : (s.delay k).macl = s.macl := rfl
@[simp] theorem State.delay_sr (k : Nat) : (s.delay k).sr = s.sr := rfl
@[simp] theorem State.delay_pipe (k : Nat) : (s.delay k).pipe = s.pipe := rfl
@[simp] theorem State.delay_inDelaySlot (k : Nat) : (s.delay k).inDelaySlot = s.inDelaySlot := rfl
@[simp] theorem State.delay_inNoIntSlot (k : Nat) : (s.delay k).inNoIntSlot = s.inNoIntSlot := rfl
@[simp] theorem State.delay_pending (k : Nat) : (s.delay k).pending = s.pending := rfl
@[simp] theorem State.delay_pendingAddressError (k : Nat) :
    (s.delay k).pendingAddressError = s.pendingAddressError := rfl
@[simp] theorem State.delay_sleeping (k : Nat) : (s.delay k).sleeping = s.sleeping := rfl
@[simp] theorem State.delay_fault (k : Nat) : (s.delay k).fault = s.fault := rfl
@[simp] theorem State.delay_fetchWait (k : Nat) : (s.delay k).fetchWait = s.fetchWait := rfl
@[simp] theorem State.delay_execWait (k : Nat) : (s.delay k).execWait = s.execWait + k := rfl
@[simp] theorem State.delay_curAddr (k : Nat) : (s.delay k).curAddr = s.curAddr := rfl
@[simp] theorem State.delay_curWord (k : Nat) : (s.delay k).curWord = s.curWord := rfl
@[simp] theorem State.delay_plat (k : Nat) : (s.delay k).plat = s.plat := rfl
@[simp] theorem State.delay_reg (k : Nat) (r : Reg) : (s.delay k).reg r = s.reg r := rfl

/-! ### `State.closeSlots` -/

@[simp] theorem State.closeSlots_regs : s.closeSlots.regs = s.regs := rfl
@[simp] theorem State.closeSlots_pc : s.closeSlots.pc = s.pc := rfl
@[simp] theorem State.closeSlots_pr : s.closeSlots.pr = s.pr := rfl
@[simp] theorem State.closeSlots_gbr : s.closeSlots.gbr = s.gbr := rfl
@[simp] theorem State.closeSlots_vbr : s.closeSlots.vbr = s.vbr := rfl
@[simp] theorem State.closeSlots_mach : s.closeSlots.mach = s.mach := rfl
@[simp] theorem State.closeSlots_macl : s.closeSlots.macl = s.macl := rfl
@[simp] theorem State.closeSlots_sr : s.closeSlots.sr = s.sr := rfl
@[simp] theorem State.closeSlots_pipe : s.closeSlots.pipe = s.pipe := rfl
@[simp] theorem State.closeSlots_inDelaySlot : s.closeSlots.inDelaySlot = false := rfl
@[simp] theorem State.closeSlots_inNoIntSlot : s.closeSlots.inNoIntSlot = false := rfl
@[simp] theorem State.closeSlots_pending : s.closeSlots.pending = s.pending := rfl
@[simp] theorem State.closeSlots_pendingAddressError :
    s.closeSlots.pendingAddressError = s.pendingAddressError := rfl
@[simp] theorem State.closeSlots_sleeping : s.closeSlots.sleeping = s.sleeping := rfl
@[simp] theorem State.closeSlots_fault : s.closeSlots.fault = s.fault := rfl
@[simp] theorem State.closeSlots_fetchWait : s.closeSlots.fetchWait = s.fetchWait := rfl
@[simp] theorem State.closeSlots_execWait : s.closeSlots.execWait = s.execWait := rfl
@[simp] theorem State.closeSlots_curAddr : s.closeSlots.curAddr = s.curAddr := rfl
@[simp] theorem State.closeSlots_curWord : s.closeSlots.curWord = s.curWord := rfl
@[simp] theorem State.closeSlots_plat : s.closeSlots.plat = s.plat := rfl
@[simp] theorem State.closeSlots_reg (r : Reg) : s.closeSlots.reg r = s.reg r := rfl

/-! ### `State.retire` -/

@[simp] theorem State.retire_regs (i : Instr) (d : Bool) : (s.retire i d).regs = s.regs := rfl
@[simp] theorem State.retire_pc (i : Instr) (d : Bool) : (s.retire i d).pc = s.pc := rfl
@[simp] theorem State.retire_pr (i : Instr) (d : Bool) : (s.retire i d).pr = s.pr := rfl
@[simp] theorem State.retire_gbr (i : Instr) (d : Bool) : (s.retire i d).gbr = s.gbr := rfl
@[simp] theorem State.retire_vbr (i : Instr) (d : Bool) : (s.retire i d).vbr = s.vbr := rfl
@[simp] theorem State.retire_mach (i : Instr) (d : Bool) : (s.retire i d).mach = s.mach := rfl
@[simp] theorem State.retire_macl (i : Instr) (d : Bool) : (s.retire i d).macl = s.macl := rfl
@[simp] theorem State.retire_sr (i : Instr) (d : Bool) : (s.retire i d).sr = s.sr := rfl
@[simp] theorem State.retire_pipe (i : Instr) (d : Bool) : (s.retire i d).pipe = s.pipe := rfl
@[simp] theorem State.retire_inDelaySlot (i : Instr) (d : Bool) :
    (s.retire i d).inDelaySlot = d := rfl
@[simp] theorem State.retire_inNoIntSlot (i : Instr) (d : Bool) :
    (s.retire i d).inNoIntSlot = s.plat.params.nointSet.contains i.matchWord := rfl
@[simp] theorem State.retire_pending (i : Instr) (d : Bool) :
    (s.retire i d).pending = s.pending := rfl
@[simp] theorem State.retire_pendingAddressError (i : Instr) (d : Bool) :
    (s.retire i d).pendingAddressError = s.pendingAddressError := rfl
@[simp] theorem State.retire_sleeping (i : Instr) (d : Bool) :
    (s.retire i d).sleeping = s.sleeping := rfl
@[simp] theorem State.retire_fault (i : Instr) (d : Bool) : (s.retire i d).fault = s.fault := rfl
@[simp] theorem State.retire_fetchWait (i : Instr) (d : Bool) :
    (s.retire i d).fetchWait = s.fetchWait := rfl
@[simp] theorem State.retire_execWait (i : Instr) (d : Bool) :
    (s.retire i d).execWait = s.execWait := rfl
@[simp] theorem State.retire_curAddr (i : Instr) (d : Bool) :
    (s.retire i d).curAddr = s.curAddr := rfl
@[simp] theorem State.retire_curWord (i : Instr) (d : Bool) :
    (s.retire i d).curWord = s.curWord := rfl
@[simp] theorem State.retire_plat (i : Instr) (d : Bool) : (s.retire i d).plat = s.plat := rfl
@[simp] theorem State.retire_reg (i : Instr) (d : Bool) (r : Reg) :
    (s.retire i d).reg r = s.reg r := rfl

/-! ### `State.abandon` -/

@[simp] theorem State.abandon_regs : s.abandon.regs = s.regs := rfl
@[simp] theorem State.abandon_pc : s.abandon.pc = s.pc := rfl
@[simp] theorem State.abandon_pr : s.abandon.pr = s.pr := rfl
@[simp] theorem State.abandon_gbr : s.abandon.gbr = s.gbr := rfl
@[simp] theorem State.abandon_vbr : s.abandon.vbr = s.vbr := rfl
@[simp] theorem State.abandon_mach : s.abandon.mach = s.mach := rfl
@[simp] theorem State.abandon_macl : s.abandon.macl = s.macl := rfl
@[simp] theorem State.abandon_sr : s.abandon.sr = s.sr := rfl
@[simp] theorem State.abandon_pipe : s.abandon.pipe = s.pipe := rfl
@[simp] theorem State.abandon_inDelaySlot : s.abandon.inDelaySlot = false := rfl
@[simp] theorem State.abandon_inNoIntSlot : s.abandon.inNoIntSlot = false := rfl
@[simp] theorem State.abandon_pending : s.abandon.pending = s.pending := rfl
@[simp] theorem State.abandon_pendingAddressError : s.abandon.pendingAddressError = true := rfl
@[simp] theorem State.abandon_sleeping : s.abandon.sleeping = s.sleeping := rfl
@[simp] theorem State.abandon_fault : s.abandon.fault = s.fault := rfl
@[simp] theorem State.abandon_fetchWait : s.abandon.fetchWait = s.fetchWait := rfl
@[simp] theorem State.abandon_execWait : s.abandon.execWait = s.execWait := rfl
@[simp] theorem State.abandon_curAddr : s.abandon.curAddr = s.curAddr := rfl
@[simp] theorem State.abandon_curWord : s.abandon.curWord = s.curWord := rfl
@[simp] theorem State.abandon_plat : s.abandon.plat = s.plat := rfl
@[simp] theorem State.abandon_reg (r : Reg) : s.abandon.reg r = s.reg r := rfl

/-! ### `State.setMach`, `State.setMac` and `State.raiseMask` -/

@[simp] theorem State.setMach_regs (v : Word) : (s.setMach v).regs = s.regs := rfl
@[simp] theorem State.setMach_pc (v : Word) : (s.setMach v).pc = s.pc := rfl
@[simp] theorem State.setMach_pr (v : Word) : (s.setMach v).pr = s.pr := rfl
@[simp] theorem State.setMach_gbr (v : Word) : (s.setMach v).gbr = s.gbr := rfl
@[simp] theorem State.setMach_vbr (v : Word) : (s.setMach v).vbr = s.vbr := rfl
@[simp] theorem State.setMach_macl (v : Word) : (s.setMach v).macl = s.macl := rfl
@[simp] theorem State.setMach_sr (v : Word) : (s.setMach v).sr = s.sr := rfl
@[simp] theorem State.setMach_pipe (v : Word) : (s.setMach v).pipe = s.pipe := rfl
@[simp] theorem State.setMach_inDelaySlot (v : Word) :
    (s.setMach v).inDelaySlot = s.inDelaySlot := rfl
@[simp] theorem State.setMach_inNoIntSlot (v : Word) :
    (s.setMach v).inNoIntSlot = s.inNoIntSlot := rfl
@[simp] theorem State.setMach_pending (v : Word) : (s.setMach v).pending = s.pending := rfl
@[simp] theorem State.setMach_pendingAddressError (v : Word) :
    (s.setMach v).pendingAddressError = s.pendingAddressError := rfl
@[simp] theorem State.setMach_sleeping (v : Word) : (s.setMach v).sleeping = s.sleeping := rfl
@[simp] theorem State.setMach_fault (v : Word) : (s.setMach v).fault = s.fault := rfl
@[simp] theorem State.setMach_fetchWait (v : Word) : (s.setMach v).fetchWait = s.fetchWait := rfl
@[simp] theorem State.setMach_execWait (v : Word) : (s.setMach v).execWait = s.execWait := rfl
@[simp] theorem State.setMach_curAddr (v : Word) : (s.setMach v).curAddr = s.curAddr := rfl
@[simp] theorem State.setMach_curWord (v : Word) : (s.setMach v).curWord = s.curWord := rfl
@[simp] theorem State.setMach_plat (v : Word) : (s.setMach v).plat = s.plat := rfl
@[simp] theorem State.setMach_reg (v : Word) (k : Reg) : (s.setMach v).reg k = s.reg k := rfl
@[simp] theorem State.setMach_mach (v : Word) :
    (s.setMach v).mach = keptMach s.plat.params.machBits v := rfl
@[simp] theorem State.setMac_regs (v : BitVec 64) : (s.setMac v).regs = s.regs := rfl
@[simp] theorem State.setMac_pc (v : BitVec 64) : (s.setMac v).pc = s.pc := rfl
@[simp] theorem State.setMac_pr (v : BitVec 64) : (s.setMac v).pr = s.pr := rfl
@[simp] theorem State.setMac_gbr (v : BitVec 64) : (s.setMac v).gbr = s.gbr := rfl
@[simp] theorem State.setMac_vbr (v : BitVec 64) : (s.setMac v).vbr = s.vbr := rfl
@[simp] theorem State.setMac_macl (v : BitVec 64) : (s.setMac v).macl = v.extractLsb' 0 32 := rfl
@[simp] theorem State.setMac_sr (v : BitVec 64) : (s.setMac v).sr = s.sr := rfl
@[simp] theorem State.setMac_pipe (v : BitVec 64) : (s.setMac v).pipe = s.pipe := rfl
@[simp] theorem State.setMac_inDelaySlot (v : BitVec 64) :
    (s.setMac v).inDelaySlot = s.inDelaySlot := rfl
@[simp] theorem State.setMac_inNoIntSlot (v : BitVec 64) :
    (s.setMac v).inNoIntSlot = s.inNoIntSlot := rfl
@[simp] theorem State.setMac_pending (v : BitVec 64) : (s.setMac v).pending = s.pending := rfl
@[simp] theorem State.setMac_pendingAddressError (v : BitVec 64) :
    (s.setMac v).pendingAddressError = s.pendingAddressError := rfl
@[simp] theorem State.setMac_sleeping (v : BitVec 64) : (s.setMac v).sleeping = s.sleeping := rfl
@[simp] theorem State.setMac_fault (v : BitVec 64) : (s.setMac v).fault = s.fault := rfl
@[simp] theorem State.setMac_fetchWait (v : BitVec 64) : (s.setMac v).fetchWait = s.fetchWait := rfl
@[simp] theorem State.setMac_execWait (v : BitVec 64) : (s.setMac v).execWait = s.execWait := rfl
@[simp] theorem State.setMac_curAddr (v : BitVec 64) : (s.setMac v).curAddr = s.curAddr := rfl
@[simp] theorem State.setMac_curWord (v : BitVec 64) : (s.setMac v).curWord = s.curWord := rfl
@[simp] theorem State.setMac_plat (v : BitVec 64) : (s.setMac v).plat = s.plat := rfl
@[simp] theorem State.setMac_reg (v : BitVec 64) (k : Reg) : (s.setMac v).reg k = s.reg k := rfl
@[simp] theorem State.raiseMask_regs (m : Option Nat) : (s.raiseMask m).regs = s.regs := by
  cases m <;> rfl
@[simp] theorem State.raiseMask_pc (m : Option Nat) : (s.raiseMask m).pc = s.pc := by
  cases m <;> rfl
@[simp] theorem State.raiseMask_pr (m : Option Nat) : (s.raiseMask m).pr = s.pr := by
  cases m <;> rfl
@[simp] theorem State.raiseMask_gbr (m : Option Nat) : (s.raiseMask m).gbr = s.gbr := by
  cases m <;> rfl
@[simp] theorem State.raiseMask_vbr (m : Option Nat) : (s.raiseMask m).vbr = s.vbr := by
  cases m <;> rfl
@[simp] theorem State.raiseMask_mach (m : Option Nat) : (s.raiseMask m).mach = s.mach := by
  cases m <;> rfl
@[simp] theorem State.raiseMask_macl (m : Option Nat) : (s.raiseMask m).macl = s.macl := by
  cases m <;> rfl
@[simp] theorem State.raiseMask_pipe (m : Option Nat) : (s.raiseMask m).pipe = s.pipe := by
  cases m <;> rfl
@[simp] theorem State.raiseMask_inDelaySlot (m : Option Nat) :
    (s.raiseMask m).inDelaySlot = s.inDelaySlot := by
  cases m <;> rfl
@[simp] theorem State.raiseMask_inNoIntSlot (m : Option Nat) :
    (s.raiseMask m).inNoIntSlot = s.inNoIntSlot := by
  cases m <;> rfl
@[simp] theorem State.raiseMask_pending (m : Option Nat) : (s.raiseMask m).pending = s.pending := by
  cases m <;> rfl
@[simp] theorem State.raiseMask_pendingAddressError (m : Option Nat) :
    (s.raiseMask m).pendingAddressError = s.pendingAddressError := by
  cases m <;> rfl
@[simp] theorem State.raiseMask_sleeping (m : Option Nat) :
    (s.raiseMask m).sleeping = s.sleeping := by
  cases m <;> rfl
@[simp] theorem State.raiseMask_fault (m : Option Nat) : (s.raiseMask m).fault = s.fault := by
  cases m <;> rfl
@[simp] theorem State.raiseMask_fetchWait (m : Option Nat) :
    (s.raiseMask m).fetchWait = s.fetchWait := by
  cases m <;> rfl
@[simp] theorem State.raiseMask_execWait (m : Option Nat) :
    (s.raiseMask m).execWait = s.execWait := by
  cases m <;> rfl
@[simp] theorem State.raiseMask_curAddr (m : Option Nat) : (s.raiseMask m).curAddr = s.curAddr := by
  cases m <;> rfl
@[simp] theorem State.raiseMask_curWord (m : Option Nat) : (s.raiseMask m).curWord = s.curWord := by
  cases m <;> rfl
@[simp] theorem State.raiseMask_plat (m : Option Nat) : (s.raiseMask m).plat = s.plat := by
  cases m <;> rfl
@[simp] theorem State.raiseMask_reg (m : Option Nat) (k : Reg) :
    (s.raiseMask m).reg k = s.reg k := by
  cases m <;> rfl
@[simp] theorem State.raiseMask_sr_none : (s.raiseMask none).sr = s.sr := rfl
@[simp] theorem State.raiseMask_sr_some (p : Nat) :
    (s.raiseMask (some p)).sr = { s.sr with i := BitVec.ofNat 4 (min p 15) } := rfl

/-! ### General registers -/

/-- A register reads the value written to it. -/
@[simp] theorem State.reg_setReg_same (n : Reg) (v : Word) : (s.setReg n v).reg n = v := by
  simp [State.reg, State.setReg]

/-- A write of one register leaves every other one. -/
theorem State.reg_setReg_ne {n k : Reg} (v : Word) (h : k ≠ n) : (s.setReg n v).reg k = s.reg k := by
  have h' : n.toNat ≠ k.toNat := fun e => h (BitVec.eq_of_toNat_eq e.symm)
  simp [State.reg, State.setReg, h']

/-- A register after a write. -/
theorem State.reg_setReg (n k : Reg) (v : Word) :
    (s.setReg n v).reg k = if k = n then v else s.reg k := by
  split
  · next h => subst h; simp
  · next h => exact s.reg_setReg_ne v h

/-! ### The status register and MACH -/

/-- SR stores and reads `v & 0x000003F3` (10_state.md R35). -/
@[simp] theorem StatusReg.word_ofWord (v : Word) : (StatusReg.ofWord v).word = v &&& 0x000003F3 := by
  apply BitVec.eq_of_getLsbD_eq
  intro i hi
  simp only [StatusReg.word, StatusReg.ofWord, BitVec.getLsbD_append, BitVec.getLsbD_and]
  interval_cases i <;> simp

/-- The fields of SR's word are SR's fields. -/
@[simp] theorem StatusReg.ofWord_word (r : StatusReg) : StatusReg.ofWord r.word = r := by
  obtain ⟨t, s, i, q, m⟩ := r
  revert t s i q m
  decide

/-- A mask is the smaller of the priority and 15 (60_exceptions.md R360). -/
theorem mask_toNat (p : Nat) : (BitVec.ofNat 4 (min p 15)).toNat = min p 15 := by
  simp only [BitVec.toNat_ofNat]; omega

/-! ### Updates of the platform -/

variable (p : Platform)

@[simp] theorem Platform.setChan_params (c : Fin 4) (ch : DmaChannel) :
    (p.setChan c ch).params = p.params := rfl
@[simp] theorem Platform.setChan_pageTable (c : Fin 4) (ch : DmaChannel) :
    (p.setChan c ch).pageTable = p.pageTable := rfl
@[simp] theorem Platform.setChan_mem (c : Fin 4) (ch : DmaChannel) :
    (p.setChan c ch).mem = p.mem := rfl
@[simp] theorem Platform.setChan_now (c : Fin 4) (ch : DmaChannel) :
    (p.setChan c ch).now = p.now := rfl
@[simp] theorem Platform.setChan_events (c : Fin 4) (ch : DmaChannel) :
    (p.setChan c ch).events = p.events := rfl
@[simp] theorem Platform.setChan_dma (c : Fin 4) (ch : DmaChannel) :
    (p.setChan c ch).dma = p.dma.set c.val ch := rfl
@[simp] theorem Platform.setChan_dmaor (c : Fin 4) (ch : DmaChannel) :
    (p.setChan c ch).dmaor = p.dmaor := rfl
@[simp] theorem Platform.setChan_lines (c : Fin 4) (ch : DmaChannel) :
    (p.setChan c ch).lines = p.lines := rfl
@[simp] theorem Platform.setChan_sci0 (c : Fin 4) (ch : DmaChannel) :
    (p.setChan c ch).sci0 = p.sci0 := rfl
@[simp] theorem Platform.setChan_sci1 (c : Fin 4) (ch : DmaChannel) :
    (p.setChan c ch).sci1 = p.sci1 := rfl
@[simp] theorem Platform.setChan_intc (c : Fin 4) (ch : DmaChannel) :
    (p.setChan c ch).intc = p.intc := rfl
@[simp] theorem Platform.setChan_outLog (c : Fin 4) (ch : DmaChannel) :
    (p.setChan c ch).outLog = p.outLog := rfl
@[simp] theorem Platform.setChan_hooks (c : Fin 4) (ch : DmaChannel) :
    (p.setChan c ch).hooks = p.hooks := rfl
@[simp] theorem Platform.setChan_env (c : Fin 4) (ch : DmaChannel) :
    (p.setChan c ch).env = p.env := rfl
@[simp] theorem Platform.setChan_envWrites (c : Fin 4) (ch : DmaChannel) :
    (p.setChan c ch).envWrites = p.envWrites := rfl
@[simp] theorem Platform.setChan_draws (c : Fin 4) (ch : DmaChannel) :
    (p.setChan c ch).draws = p.draws := rfl
@[simp] theorem Platform.setSci_params (c : SciPort) (port : Port) :
    (p.setSci c port).params = p.params := by
  cases port <;> rfl
@[simp] theorem Platform.setSci_pageTable (c : SciPort) (port : Port) :
    (p.setSci c port).pageTable = p.pageTable := by
  cases port <;> rfl
@[simp] theorem Platform.setSci_mem (c : SciPort) (port : Port) :
    (p.setSci c port).mem = p.mem := by
  cases port <;> rfl
@[simp] theorem Platform.setSci_now (c : SciPort) (port : Port) :
    (p.setSci c port).now = p.now := by
  cases port <;> rfl
@[simp] theorem Platform.setSci_events (c : SciPort) (port : Port) :
    (p.setSci c port).events = p.events := by
  cases port <;> rfl
@[simp] theorem Platform.setSci_dma (c : SciPort) (port : Port) :
    (p.setSci c port).dma = p.dma := by
  cases port <;> rfl
@[simp] theorem Platform.setSci_dmaor (c : SciPort) (port : Port) :
    (p.setSci c port).dmaor = p.dmaor := by
  cases port <;> rfl
@[simp] theorem Platform.setSci_lines (c : SciPort) (port : Port) :
    (p.setSci c port).lines = p.lines := by
  cases port <;> rfl
@[simp] theorem Platform.setSci_intc (c : SciPort) (port : Port) :
    (p.setSci c port).intc = p.intc := by
  cases port <;> rfl
@[simp] theorem Platform.setSci_outLog (c : SciPort) (port : Port) :
    (p.setSci c port).outLog = p.outLog := by
  cases port <;> rfl
@[simp] theorem Platform.setSci_hooks (c : SciPort) (port : Port) :
    (p.setSci c port).hooks = p.hooks := by
  cases port <;> rfl
@[simp] theorem Platform.setSci_env (c : SciPort) (port : Port) :
    (p.setSci c port).env = p.env := by
  cases port <;> rfl
@[simp] theorem Platform.setSci_envWrites (c : SciPort) (port : Port) :
    (p.setSci c port).envWrites = p.envWrites := by
  cases port <;> rfl
@[simp] theorem Platform.setSci_draws (c : SciPort) (port : Port) :
    (p.setSci c port).draws = p.draws := by
  cases port <;> rfl
@[simp] theorem Platform.setLine_params (b : Bool) (l : DreqLine) :
    (p.setLine b l).params = p.params := by
  cases l <;> rfl
@[simp] theorem Platform.setLine_pageTable (b : Bool) (l : DreqLine) :
    (p.setLine b l).pageTable = p.pageTable := by
  cases l <;> rfl
@[simp] theorem Platform.setLine_mem (b : Bool) (l : DreqLine) :
    (p.setLine b l).mem = p.mem := by
  cases l <;> rfl
@[simp] theorem Platform.setLine_now (b : Bool) (l : DreqLine) :
    (p.setLine b l).now = p.now := by
  cases l <;> rfl
@[simp] theorem Platform.setLine_events (b : Bool) (l : DreqLine) :
    (p.setLine b l).events = p.events := by
  cases l <;> rfl
@[simp] theorem Platform.setLine_dma (b : Bool) (l : DreqLine) :
    (p.setLine b l).dma = p.dma := by
  cases l <;> rfl
@[simp] theorem Platform.setLine_dmaor (b : Bool) (l : DreqLine) :
    (p.setLine b l).dmaor = p.dmaor := by
  cases l <;> rfl
@[simp] theorem Platform.setLine_sci0 (b : Bool) (l : DreqLine) :
    (p.setLine b l).sci0 = p.sci0 := by
  cases l <;> rfl
@[simp] theorem Platform.setLine_sci1 (b : Bool) (l : DreqLine) :
    (p.setLine b l).sci1 = p.sci1 := by
  cases l <;> rfl
@[simp] theorem Platform.setLine_intc (b : Bool) (l : DreqLine) :
    (p.setLine b l).intc = p.intc := by
  cases l <;> rfl
@[simp] theorem Platform.setLine_outLog (b : Bool) (l : DreqLine) :
    (p.setLine b l).outLog = p.outLog := by
  cases l <;> rfl
@[simp] theorem Platform.setLine_hooks (b : Bool) (l : DreqLine) :
    (p.setLine b l).hooks = p.hooks := by
  cases l <;> rfl
@[simp] theorem Platform.setLine_env (b : Bool) (l : DreqLine) :
    (p.setLine b l).env = p.env := by
  cases l <;> rfl
@[simp] theorem Platform.setLine_envWrites (b : Bool) (l : DreqLine) :
    (p.setLine b l).envWrites = p.envWrites := by
  cases l <;> rfl
@[simp] theorem Platform.setLine_draws (b : Bool) (l : DreqLine) :
    (p.setLine b l).draws = p.draws := by
  cases l <;> rfl
@[simp] theorem addEvent_params (k : Nat) (d : Int) (port : Port) :
    (addEvent k d port p).params = p.params := by
  unfold addEvent; split <;> rfl
@[simp] theorem addEvent_pageTable (k : Nat) (d : Int) (port : Port) :
    (addEvent k d port p).pageTable = p.pageTable := by
  unfold addEvent; split <;> rfl
@[simp] theorem addEvent_mem (k : Nat) (d : Int) (port : Port) :
    (addEvent k d port p).mem = p.mem := by
  unfold addEvent; split <;> rfl
@[simp] theorem addEvent_now (k : Nat) (d : Int) (port : Port) :
    (addEvent k d port p).now = p.now := by
  unfold addEvent; split <;> rfl
@[simp] theorem addEvent_events (d : Int) (port : Port) :
    (addEvent cpuDomain d port p).events = p.events ++ [Event.mk cpuDomain (p.now + d) port] := rfl
@[simp] theorem addEvent_dma (k : Nat) (d : Int) (port : Port) :
    (addEvent k d port p).dma = p.dma := by
  unfold addEvent; split <;> rfl
@[simp] theorem addEvent_dmaor (k : Nat) (d : Int) (port : Port) :
    (addEvent k d port p).dmaor = p.dmaor := by
  unfold addEvent; split <;> rfl
@[simp] theorem addEvent_lines (k : Nat) (d : Int) (port : Port) :
    (addEvent k d port p).lines = p.lines := by
  unfold addEvent; split <;> rfl
@[simp] theorem addEvent_sci0 (k : Nat) (d : Int) (port : Port) :
    (addEvent k d port p).sci0 = p.sci0 := by
  unfold addEvent; split <;> rfl
@[simp] theorem addEvent_sci1 (k : Nat) (d : Int) (port : Port) :
    (addEvent k d port p).sci1 = p.sci1 := by
  unfold addEvent; split <;> rfl
@[simp] theorem addEvent_intc (k : Nat) (d : Int) (port : Port) :
    (addEvent k d port p).intc = p.intc := by
  unfold addEvent; split <;> rfl
@[simp] theorem addEvent_outLog (k : Nat) (d : Int) (port : Port) :
    (addEvent k d port p).outLog = p.outLog := by
  unfold addEvent; split <;> rfl
@[simp] theorem addEvent_hooks (k : Nat) (d : Int) (port : Port) :
    (addEvent k d port p).hooks = p.hooks := by
  unfold addEvent; split <;> rfl
@[simp] theorem addEvent_env (k : Nat) (d : Int) (port : Port) :
    (addEvent k d port p).env = p.env := by
  unfold addEvent; split <;> rfl
@[simp] theorem addEvent_envWrites (k : Nat) (d : Int) (port : Port) :
    (addEvent k d port p).envWrites = p.envWrites := by
  unfold addEvent; split <;> rfl
@[simp] theorem addEvent_draws (k : Nat) (d : Int) (port : Port) :
    (addEvent k d port p).draws = p.draws := by
  unfold addEvent; split <;> rfl

/-- A port reads as it was set, and the other one keeps its state. -/
@[simp] theorem Platform.sci_setSci (c : SciPort) (port port' : Port) :
    (p.setSci c port).sci port' = if port' = port then c else p.sci port' := by
  cases port <;> cases port' <;> rfl

/-- A channel reads as it was set, and every other one keeps its state. -/
@[simp] theorem Platform.chan_setChan (c c' : Fin 4) (ch : DmaChannel) :
    (p.setChan c ch).chan c' = if c' = c then ch else p.chan c' := by
  simp only [Platform.chan, Platform.setChan, Vector.getElem_set, Fin.ext_iff, eq_comm]

@[simp] theorem Platform.chan_setSci (c : SciPort) (port : Port) (k : Fin 4) :
    (p.setSci c port).chan k = p.chan k := by
  simp [Platform.chan]

@[simp] theorem Platform.chan_setLine (b : Bool) (l : DreqLine) (k : Fin 4) :
    (p.setLine b l).chan k = p.chan k := by
  simp [Platform.chan]

@[simp] theorem Platform.sci_setChan (c : Fin 4) (ch : DmaChannel) (port : Port) :
    (p.setChan c ch).sci port = p.sci port := by
  cases port <;> rfl

@[simp] theorem Platform.sci_setLine (b : Bool) (l : DreqLine) (port : Port) :
    (p.setLine b l).sci port = p.sci port := by
  cases port <;> cases l <;> rfl

end Sys2Proof.Machine
end

