-- ==== Sys2Proof/Laws/Devices.lean ====
section
/-! SUPPORT. What a bus or device operation can do to the platform, said once: it ends or raises a fault,
and either way it leaves the parameters, the page table, the clock, the hooks and the environment's
schedule alone and keeps the platform's invariant. -/

namespace Sys2Proof.Machine

/-! ### The relation -/

/-- What every bus or device operation guarantees of the platform it leaves. A channel that is running
with units left is left running with units left, but for the channel `x`, whose own transfer this
is. -/
structure Platform.FollowsBut (x : Option (Fin 4)) (p p' : Platform) : Prop where
  params    : p'.params = p.params
  pageTable : p'.pageTable = p.pageTable
  now       : p'.now = p.now
  hooks     : p'.hooks = p.hooks
  env       : p'.env = p.env
  inv       : p.Inv → p'.Inv
  running   : ∀ d, x ≠ some d → (p.chan d).active = true → (p.chan d).count ≠ 0 →
    (p'.chan d).active = true ∧ (p'.chan d).count ≠ 0

/-- `FollowsBut` with no exception. -/
abbrev Platform.Follows : Platform → Platform → Prop := Platform.FollowsBut none

theorem Platform.FollowsBut.refl {x : Option (Fin 4)} (p : Platform) : p.FollowsBut x p :=
  ⟨rfl, rfl, rfl, rfl, rfl, id, fun _ _ h h' => ⟨h, h'⟩⟩

theorem Platform.FollowsBut.trans {x : Option (Fin 4)} {p q r : Platform} (h : p.FollowsBut x q)
    (h' : q.FollowsBut x r) : p.FollowsBut x r :=
  ⟨h'.params.trans h.params, h'.pageTable.trans h.pageTable, h'.now.trans h.now,
    h'.hooks.trans h.hooks, h'.env.trans h.env, fun i => h'.inv (h.inv i), fun d hd ha hn =>
      h'.running d hd (h.running d hd ha hn).1 (h.running d hd ha hn).2⟩

theorem Platform.FollowsBut.weaken {x : Option (Fin 4)} {p q : Platform} (h : p.Follows q) :
    p.FollowsBut x q :=
  ⟨h.params, h.pageTable, h.now, h.hooks, h.env, h.inv, fun d _ => h.running d (by simp)⟩

/-- If it ends or raises, an operation leaves a platform of which `P` holds. -/
def Io.All (P : Platform → Prop) : Io → Prop
  | .ok p => P p
  | .raise _ p => P p
  | .hang => True

@[simp] theorem Io.all_ok {P : Platform → Prop} {p : Platform} : (Io.ok p).All P ↔ P p := Iff.rfl

@[simp] theorem Io.all_raise {P : Platform → Prop} {f : FaultReason} {p : Platform} :
    (Io.raise f p).All P ↔ P p := Iff.rfl

@[simp] theorem Io.all_hang {P : Platform → Prop} : Io.hang.All P := trivial

/-- What holds of every platform an operation may leave holds of the one it leaves. -/
theorem Io.All.imp {P Q : Platform → Prop} {r : Io} (hr : r.All P) (h : ∀ p, P p → Q p) : r.All Q := by
  cases r with
  | ok p => exact h p hr
  | raise f p => exact h p hr
  | hang => trivial

/-- Sequencing: what follows starts where the first part ended. -/
theorem Io.all_bind {x : Option (Fin 4)} {p : Platform} {r : Io} {k : Platform → Io}
    (hr : r.All (p.FollowsBut x)) (hk : ∀ q, (k q).All (q.FollowsBut x)) :
    (r.bind k).All (p.FollowsBut x) := by
  cases r with
  | ok q => exact Io.All.imp (hk q) fun _ => Platform.FollowsBut.trans hr
  | raise f q => exact hr
  | hang => trivial

theorem Io.all_of_follows {x : Option (Fin 4)} {p q : Platform} {r : Io} (h : p.FollowsBut x q)
    (hr : r.All (q.FollowsBut x)) : r.All (p.FollowsBut x) :=
  Io.All.imp hr fun _ => h.trans

/-! ### Updates -/

/-- A port may be replaced by one that is legal whenever the old one was. -/
theorem Platform.follows_setSci (p : Platform) {c : SciPort} {port : Port}
    (h : (p.sci port).Legal → c.Legal) : p.Follows (p.setSci c port) where
  params := by simp
  pageTable := by simp
  now := by simp
  hooks := by simp
  env := by simp
  inv i :=
    { memory := by simpa using i.memory
      channels := fun k => by simpa using i.channels k
      ports := fun q => by
        rw [Platform.sci_setSci]
        split
        · exact h (i.ports port)
        · exact i.ports q
      ipre := by simpa using i.ipre
      icr := by simpa using i.icr
      rxLines := by simpa using i.rxLines }
  running d _ h h' := by simpa using ⟨h, h'⟩

/-- A channel may be replaced by one that is legal whenever the old one was, and that is left running
if it was. -/
theorem Platform.followsBut_setChan (p : Platform) {x : Option (Fin 4)} {c : Fin 4} {ch : DmaChannel}
    (h : (p.chan c).Legal → ch.Legal)
    (hr : x ≠ some c → (p.chan c).active = true → (p.chan c).count ≠ 0 →
      ch.active = true ∧ ch.count ≠ 0) : p.FollowsBut x (p.setChan c ch) where
  params := rfl
  pageTable := rfl
  now := rfl
  hooks := rfl
  env := rfl
  inv i :=
    { memory := i.memory
      channels := fun k => by
        rw [Platform.chan_setChan]
        split
        · exact h (i.channels c)
        · exact i.channels k
      ports := fun q => by simpa using i.ports q
      ipre := i.ipre
      icr := i.icr
      rxLines := i.rxLines }
  running d hd ha hn := by
    rw [Platform.chan_setChan]
    split
    · next e => subst e; exact hr hd ha hn
    · exact ⟨ha, hn⟩

/-- The level of a transmit line is free. -/
theorem Platform.follows_setLine (p : Platform) (b : Bool) (port : Port) :
    p.Follows (p.setLine b (txLine port)) where
  params := by simp
  pageTable := by simp
  now := by simp
  hooks := by simp
  env := by simp
  inv i :=
    { memory := by simpa using i.memory
      channels := fun k => by simpa using i.channels k
      ports := fun q => by simpa using i.ports q
      ipre := by simpa using i.ipre
      icr := by simpa using i.icr
      rxLines := by cases port <;> exact i.rxLines }
  running d _ h h' := by simpa using ⟨h, h'⟩

/-- Parts of the platform that the invariant does not speak of are free. -/
theorem Platform.follows_free (p : Platform) (events : List Event) (dmaor : Half)
    (outLog : List LogEntry) (envWrites : List EnvWrite) (draws : Nat) :
    p.Follows { p with events := events, dmaor := dmaor, outLog := outLog
                       envWrites := envWrites, draws := draws } where
  params := rfl
  pageTable := rfl
  now := rfl
  hooks := rfl
  env := rfl
  inv i := ⟨i.memory, i.channels, fun q => by cases q <;> [exact i.ports .sci0; exact i.ports .sci1],
    i.ipre, i.icr, i.rxLines⟩
  running d _ h h' := ⟨h, h'⟩

theorem addEvent_follows (k : Nat) (d : Int) (port : Port) (p : Platform) :
    p.Follows (addEvent k d port p) := by
  unfold addEvent
  split
  · exact p.follows_free _ p.dmaor p.outLog p.envWrites p.draws
  · exact .refl p

/-! ### The serial ports -/

section
variable {check : Platform → Io} (hc : ∀ p, (check p).All p.Follows)
include hc

theorem updateTxLine_follows (port : Port) (p : Platform) :
    (updateTxLine check port p).All p.Follows := by
  simp only [updateTxLine, sendDreq, clearDreq]
  split
  · exact Io.all_of_follows (p.follows_setLine true port) (hc _)
  · split
    · exact Io.all_of_follows (p.follows_setLine false port) (hc _)
    · exact .refl p

theorem sciStart_follows (port : Port) (p : Platform) : (sciStart check port p).All p.Follows := by
  refine Io.all_of_follows (p.follows_setSci (c := (p.sci port).started) (port := port) ?_)
    (Io.all_of_follows (addEvent_follows _ _ port _) (updateTxLine_follows hc port _))
  exact fun h => ⟨h.asynchronous, h.rdrf, h.orer, h.fer, h.per, le_rfl⟩

theorem byteComplete_follows (port : Port) (p : Platform) :
    (byteComplete check port p).All p.Follows := by
  simp only [byteComplete]
  have h : p.Follows { p with outLog := p.outLog ++ [LogEntry.mk port (p.sci port).prepared p.now] } :=
    p.follows_free p.events p.dmaor _ p.envWrites p.draws
  have legal : ∀ b b' : Bool, (p.sci port).Legal →
      SciPort.Legal { p.sci port with busy := b, tend := b' } :=
    fun _ _ h => ⟨h.asynchronous, h.rdrf, h.orer, h.fer, h.per, h.bitsLeft⟩
  split
  · refine Io.all_of_follows (h.trans ?_) (sciStart_follows hc port _)
    refine Platform.follows_setSci _ fun l => ?_
    exact legal false (p.sci port).tend (by cases port <;> exact l)
  · refine h.trans (Platform.follows_setSci _ fun l => ?_)
    exact legal false true (by cases port <;> exact l)

theorem bitClock_follows (port : Port) (late : Int) (p : Platform) :
    (bitClock check port late p).All p.Follows := by
  simp only [bitClock]
  have h : p.Follows (p.setSci (p.sci port).shifted port) := p.follows_setSci fun l =>
    ⟨l.asynchronous, l.rdrf, l.orer, l.fer, l.per, (Nat.sub_le _ _).trans l.bitsLeft⟩
  split
  · exact h.trans (addEvent_follows _ _ port _)
  · exact Io.all_of_follows h (byteComplete_follows hc port _)

theorem scrAction_follows (port : Port) (p : Platform) : (scrAction check port p).All p.Follows := by
  refine Io.all_bind (updateTxLine_follows hc port p) fun q => ?_
  show (if _ then _ else _ : Io).All _
  split
  · exact sciStart_follows hc port q
  · exact .refl q

theorem tdrAction_follows (port : Port) (b : Byte) (p : Platform) :
    (tdrAction check port b p).All p.Follows := by
  refine Io.all_bind (Io.all_of_follows (p.follows_setSci ?_) (updateTxLine_follows hc port _))
    fun q => ?_
  · exact fun h => ⟨h.asynchronous, h.rdrf, h.orer, h.fer, h.per, h.bitsLeft⟩
  · show (if _ then _ else _ : Io).All _
    split
    · exact sciStart_follows hc port q
    · exact .refl q

end

/-! ### The on-chip registers -/

theorem SciPort.writeSsr_legal {c : SciPort} (v : Byte) (h : c.Legal) : (c.writeSsr v).Legal :=
  ⟨h.asynchronous, by simp [SciPort.writeSsr, h.rdrf], by simp [SciPort.writeSsr, h.orer],
    by simp [SciPort.writeSsr, h.fer], by simp [SciPort.writeSsr, h.per], h.bitsLeft⟩

theorem tcrCount_le (v : Half) : (tcrCount v).toNat ≤ 0x10000 := by
  unfold tcrCount
  split
  · decide
  · have := v.isLt
    simp only [BitVec.toNat_setWidth]
    omega

theorem tcrCount_ne (v : Half) : tcrCount v ≠ 0 := by
  unfold tcrCount
  split
  · decide
  · next h =>
    intro e
    apply h
    apply BitVec.eq_of_toNat_eq
    have := congrArg BitVec.toNat e
    have := v.isLt
    simp only [BitVec.toNat_setWidth] at *
    simp at *
    omega

theorem chcrStored_bit2 {old v : Half} (h : v.getLsbD 2 = false) :
    (chcrStored old v).getLsbD 2 = false := by
  simp only [chcrStored, BitVec.getLsbD_or, BitVec.getLsbD_and, h]
  rfl

theorem chcrStored_steps {old v : Half} (h : chcrStepReserved v = false) :
    chcrStepReserved (chcrStored old v) = false := by
  have e1 : (chcrStored old v).extractLsb' 14 2 = v.extractLsb' 14 2 := by
    apply BitVec.eq_of_getLsbD_eq
    intro i hi
    interval_cases i <;> simp [chcrStored]
  have e2 : (chcrStored old v).extractLsb' 12 2 = v.extractLsb' 12 2 := by
    apply BitVec.eq_of_getLsbD_eq
    intro i hi
    interval_cases i <;> simp [chcrStored]
  simpa [chcrStepReserved, e1, e2] using h

theorem ipreStored_low (v : Half) : v &&& 0xFFF0 &&& 0x000F = 0 := by
  rw [BitVec.and_assoc]
  simp

theorem icrStored_high (v : Half) : v &&& 0x01FF &&& 0xFE00 = 0 := by
  rw [BitVec.and_assoc]
  simp

theorem storeReg_follows (r : OnchipReg) (v : Word) (p : Platform) :
    (storeReg r v p).All p.Follows := by
  cases r with
  | smr port =>
    simp only [storeReg]
    split
    · exact .refl p
    · next h =>
      exact p.follows_setSci fun l => ⟨by simpa using h, l.rdrf, l.orer, l.fer, l.per, l.bitsLeft⟩
  | brr port =>
    exact p.follows_setSci fun l => ⟨l.asynchronous, l.rdrf, l.orer, l.fer, l.per, l.bitsLeft⟩
  | scr port =>
    exact p.follows_setSci fun l => ⟨l.asynchronous, l.rdrf, l.orer, l.fer, l.per, l.bitsLeft⟩
  | tdr port =>
    exact p.follows_setSci fun l => ⟨l.asynchronous, l.rdrf, l.orer, l.fer, l.per, l.bitsLeft⟩
  | ssr port => exact p.follows_setSci fun l => SciPort.writeSsr_legal _ l
  | rdr port => exact .refl p
  | sar c => exact p.followsBut_setChan (fun l => ⟨l.noInterrupt, l.steps, l.count⟩) fun _ h h' => ⟨h, h'⟩
  | dar c => exact p.followsBut_setChan (fun l => ⟨l.noInterrupt, l.steps, l.count⟩) fun _ h h' => ⟨h, h'⟩
  | tcr c => exact p.followsBut_setChan (fun l => ⟨l.noInterrupt, l.steps, tcrCount_le _⟩) fun _ h _ =>
      ⟨h, tcrCount_ne _⟩
  | chcr c =>
    simp only [storeReg]
    split
    · exact .refl p
    · split
      · exact .refl p
      · next h h' =>
        exact p.followsBut_setChan
          (fun l => ⟨chcrStored_bit2 (by simpa using h), chcrStored_steps (by simpa using h'), l.count⟩)
          fun _ h h' => ⟨h, h'⟩
  | dmaor => exact p.follows_free p.events _ p.outLog p.envWrites p.draws
  | intc r =>
    refine ⟨rfl, rfl, rfl, rfl, rfl,
      fun i => ⟨i.memory, i.channels, fun q => ?_, ?_, ?_, i.rxLines⟩, fun d _ h h' => ⟨h, h'⟩⟩
    · cases q <;> [exact i.ports .sci0; exact i.ports .sci1]
    · cases r <;> [exact i.ipre; exact i.ipre; exact i.ipre; exact i.ipre; skip; exact i.ipre]
      exact ipreStored_low _
    · cases r <;> [exact i.icr; exact i.icr; exact i.icr; exact i.icr; exact i.icr; skip]
      exact icrStored_high _

theorem storeAll_follows (l : List (OnchipReg × Word)) (p : Platform) :
    (storeAll l p).All p.Follows := by
  induction l generalizing p with
  | nil => exact .refl p
  | cons c l ih => exact Io.all_bind (storeReg_follows c.1 c.2 p) ih

section
variable {check : Platform → Io} (hc : ∀ p, (check p).All p.Follows)
include hc

theorem regAction_follows (r : OnchipReg) (v : Word) (p : Platform) :
    (regAction check r v p).All p.Follows := by
  cases r with
  | scr port => exact scrAction_follows hc port p
  | tdr port => exact tdrAction_follows hc port _ p
  | sar c => exact hc p
  | dar c => exact hc p
  | tcr c => exact hc p
  | chcr c => exact hc p
  | dmaor => exact hc p
  | _ => exact .refl p

theorem actAll_follows (l : List (OnchipReg × Word)) (p : Platform) :
    (actAll check l p).All p.Follows := by
  induction l generalizing p with
  | nil => exact .refl p
  | cons c l ih => exact Io.all_bind (regAction_follows hc c.1 c.2 p) ih

theorem writeOnchip_follows (off : Nat) (bs : List Byte) (p : Platform) :
    (p.writeOnchip check off bs).All p.Follows :=
  Io.all_bind (storeAll_follows _ p) (actAll_follows hc _)

/-! ### The bus -/

theorem writeWith_follows (z : Size) (a v : Word) (p : Platform) :
    (p.writeWith check z a v).All p.Follows := by
  simp only [Platform.writeWith]
  split
  · split
    · exact ⟨rfl, rfl, rfl, rfl, rfl, fun i => ⟨Memory.writeBytes_wf i.memory, i.channels, fun q => by
        cases q <;> [exact i.ports .sci0; exact i.ports .sci1], i.ipre, i.icr, i.rxLines⟩,
        fun d _ h h' => ⟨h, h'⟩⟩
    · exact .refl p
  · exact p.follows_free p.events p.dmaor p.outLog _ p.draws
  · exact writeOnchip_follows hc _ _ p
  · exact .refl p

end

theorem draw_follows (p : Platform) : p.Follows p.draw.2 :=
  p.follows_free p.events p.dmaor p.outLog p.envWrites _

theorem onchipByte_follows (off : Nat) (p : Platform) : p.Follows (p.onchipByte off).2 := by
  unfold Platform.onchipByte
  split
  · exact .refl p
  · exact draw_follows p

theorem onchipBytes_follows (n off : Nat) (p : Platform) :
    p.Follows (Platform.onchipBytes n off p).2 := by
  induction n generalizing off p with
  | zero => exact .refl p
  | succ n ih => exact (onchipByte_follows off p).trans (ih _ _)

theorem drawBytes_follows (n : Nat) (p : Platform) : p.Follows (Platform.drawBytes n p).2 := by
  induction n generalizing p with
  | zero => exact .refl p
  | succ n ih => exact (draw_follows p).trans (ih _)

theorem read_follows (z : Size) (a : Word) (p : Platform) : p.Follows (p.read z a).2 := by
  simp only [Platform.read, Platform.readBytes]
  split
  · exact .refl p
  · exact drawBytes_follows _ p
  · exact onchipBytes_follows _ _ p
  · exact .refl p

/-! ### The DMA controller -/

/-- A channel stays legal over one unit, which runs only while the count is not 0. -/
theorem DmaChannel.advance_legal {c : DmaChannel} (z : Size) (h0 : c.count ≠ 0) (h : c.Legal) :
    (c.advance z).Legal := by
  refine ⟨h.noInterrupt, h.steps, ?_⟩
  have := h.count
  have h1 : c.count.toNat ≠ 0 := fun e => h0 (BitVec.eq_of_toNat_eq e)
  have h2 : (c.count - 1).toNat = c.count.toNat - 1 := by
    rw [BitVec.toNat_sub_of_le (by rw [BitVec.le_def]; exact Nat.one_le_iff_ne_zero.2 h1)]
    rfl
  simp only [DmaChannel.advance, h2]
  omega

theorem DmaChannel.finish_legal {c : DmaChannel} (h : c.Legal) : c.finish.Legal := by
  unfold DmaChannel.finish
  split
  · refine ⟨?_, ?_, h.count⟩
    · have := h.noInterrupt
      simp only [BitVec.getLsbD_or, this]
      rfl
    · have := h.steps
      have e1 : (c.chcr ||| 0x0002).extractLsb' 14 2 = c.chcr.extractLsb' 14 2 := by
        apply BitVec.eq_of_getLsbD_eq
        intro i hi
        interval_cases i <;> simp
      have e2 : (c.chcr ||| 0x0002).extractLsb' 12 2 = c.chcr.extractLsb' 12 2 := by
        apply BitVec.eq_of_getLsbD_eq
        intro i hi
        interval_cases i <;> simp
      simpa only [chcrStepReserved, e1, e2] using this
  · exact h

section
variable {check : Platform → Io} (hc : ∀ p, (check p).All p.Follows)
include hc

theorem dmaUnit_follows (c : Fin 4) (z : Size) (p : Platform) (ha : (p.chan c).active = true)
    (hn : (p.chan c).count ≠ 0) : (dmaUnit check c z p).All (p.FollowsBut (some c)) := by
  simp only [dmaUnit]
  split
  · exact .refl p
  · have hr := read_follows z (p.chan c).sar p
    split
    · exact hr.weaken
    · have hw := Io.all_of_follows hr
        (writeWith_follows hc z ((p.read z (p.chan c).sar).2.chan c).dar (p.read z (p.chan c).sar).1
          (p.read z (p.chan c).sar).2)
      revert hw
      generalize Platform.writeWith check z _ _ _ = r
      intro hw
      cases r with
      | hang => trivial
      | raise f q => exact Platform.FollowsBut.weaken hw
      | ok q =>
        have hq := Platform.FollowsBut.running hw c (by simp) ha hn
        refine Platform.FollowsBut.trans (Platform.FollowsBut.weaken hw)
          (q.followsBut_setChan (DmaChannel.advance_legal z hq.2) fun h => absurd rfl h)

/-- A unit leaves its channel running. -/
theorem dmaUnit_active (c : Fin 4) (z : Size) (p : Platform) (ha : (p.chan c).active = true)
    (hn : (p.chan c).count ≠ 0) {q : Platform} (h : dmaUnit check c z p = .ok q) :
    (q.chan c).active = true := by
  simp only [dmaUnit] at h
  split at h
  · cases h
  · split at h
    · cases h
    · have hw := Io.all_of_follows (read_follows z (p.chan c).sar p)
        (writeWith_follows hc z ((p.read z (p.chan c).sar).2.chan c).dar (p.read z (p.chan c).sar).1
          (p.read z (p.chan c).sar).2)
      revert h hw
      generalize Platform.writeWith check z _ _ _ = r
      intro h hw
      cases r with
      | hang => cases h
      | raise f q => cases h
      | ok r =>
        have hq := Platform.FollowsBut.running hw c (by simp) ha hn
        cases h
        have : (r.chan c).active = true := hq.1
        simpa [DmaChannel.advance] using this

theorem runUnits_follows (c : Fin 4) (z : Size) (fuel : Nat) (p : Platform)
    (ha : (p.chan c).active = true) :
    (runUnits check c z fuel p).All (p.FollowsBut (some c)) := by
  induction fuel generalizing p with
  | zero =>
    simp only [runUnits]
    split
    · trivial
    · exact .refl p
  | succ fuel ih =>
    simp only [runUnits]
    split
    · next h =>
      have hn : (p.chan c).count ≠ 0 := by
        simp only [Platform.unitDue, Bool.and_eq_true, decide_eq_true_eq] at h
        exact h.1
      have hu := dmaUnit_follows hc c z p ha hn
      have hu' : ∀ q, dmaUnit check c z p = .ok q → (q.chan c).active = true :=
        fun _ => dmaUnit_active hc c z p ha hn
      revert hu hu'
      generalize dmaUnit check c z p = r
      intro hu hu'
      cases r with
      | hang => trivial
      | raise f q => exact hu
      | ok q => exact Io.all_of_follows hu (ih q (hu' q rfl))
    · exact .refl p

theorem activate_follows (c : Fin 4) (p : Platform) : (activate check c p).All p.Follows := by
  simp only [activate]
  split
  · next h =>
    have idle : (p.chan c).active = false := by
      simp only [Bool.and_eq_true, Bool.not_eq_true'] at h
      exact h.1.1.1
    let q := p.setChan c { p.chan c with active := true }
    have h0 : p.FollowsBut (some c) q :=
      p.followsBut_setChan (fun l => ⟨l.noInterrupt, l.steps, l.count⟩) fun h => absurd rfl h
    have h1 : (runChannel check c q).All (q.FollowsBut (some c)) := by
      refine Io.all_bind (runUnits_follows hc c _ _ q (by simp [q])) fun r => ?_
      exact r.followsBut_setChan DmaChannel.finish_legal fun h => absurd rfl h
    have h2 : ((runChannel check c q).bind fun r =>
        .ok (r.setChan c { r.chan c with active := false })).All (p.FollowsBut (some c)) := by
      refine Io.all_bind (Io.all_of_follows h0 h1) fun r => ?_
      exact r.followsBut_setChan (fun l => ⟨l.noInterrupt, l.steps, l.count⟩) fun h => absurd rfl h
    refine Io.All.imp h2 fun r h2 =>
      ⟨h2.params, h2.pageTable, h2.now, h2.hooks, h2.env, h2.inv, fun d _ ha hn => ?_⟩
    by_cases e : c = d
    · subst e; rw [idle] at ha; cases ha
    · exact h2.running d (by simpa using e) ha hn
  · exact .refl p

theorem activateAll_follows (l : List (Fin 4)) (p : Platform) :
    (activateAll check l p).All p.Follows := by
  induction l generalizing p with
  | nil => exact .refl p
  | cons c l ih => exact Io.all_bind (activate_follows hc c p) ih

end

theorem checkActivationsAt_follows (depth : Nat) (p : Platform) :
    (checkActivationsAt depth p).All p.Follows := by
  induction depth generalizing p with
  | zero => exact .refl p
  | succ depth ih => exact activateAll_follows ih _ p

theorem checkActivations_follows (p : Platform) : (checkActivations p).All p.Follows :=
  checkActivationsAt_follows 4 p

/-- A bus write. -/
theorem write_follows (z : Size) (a v : Word) (p : Platform) : (p.write z a v).All p.Follows :=
  writeWith_follows checkActivations_follows z a v p

/-! ### The scheduler -/

/-- What holds of the platform a firing pass leaves, if it ends. -/
def Firing.All (P : Platform → Prop) : Firing → Prop
  | none => True
  | some q => P q.1

theorem Firing.All.imp {P Q : Platform → Prop} {r : Firing} (hr : Firing.All P r)
    (h : ∀ p, P p → Q p) : Firing.All Q r := by
  cases r with
  | none => trivial
  | some q => exact h q.1 hr

theorem Firing.all_map {P : Platform → Prop} {r : Firing} (hr : Firing.All P r)
    (f : Platform × Option FaultReason → Option FaultReason) :
    Firing.All P (r.map fun q => (q.1, f q)) := by
  cases r with
  | none => trivial
  | some q => exact hr

theorem fireEach_follows (l : List Event) (p : Platform) : Firing.All p.Follows (fireEach l p) := by
  induction l generalizing p with
  | nil => exact .refl p
  | cons e l ih =>
    have hb := bitClock_follows checkActivations_follows e.port (p.lateness e) p
    simp only [fireEach]
    revert hb
    generalize bitClock checkActivations e.port (p.lateness e) p = r
    intro hb
    cases r with
    | ok q => exact Firing.All.imp (ih q) fun _ => Platform.FollowsBut.trans hb
    | raise f q => exact Firing.all_map (Firing.All.imp (ih q) fun _ => Platform.FollowsBut.trans hb) _
    | hang => trivial

theorem fireRounds_follows (fuel : Nat) (p : Platform) :
    Firing.All p.Follows (fireRounds fuel p) := by
  induction fuel generalizing p with
  | zero => exact .refl p
  | succ fuel ih =>
    simp only [fireRounds]
    split
    · exact .refl p
    · next e l _ =>
      have h0 := p.follows_free (p.events.filter fun e => !p.isDue e) p.dmaor p.outLog p.envWrites
        p.draws
      have h1 := fireEach_follows (e :: l) { p with events := p.events.filter fun e => !p.isDue e }
      revert h1
      generalize fireEach (e :: l) { p with events := p.events.filter fun e => !p.isDue e } = r
      intro h1
      cases r with
      | none => trivial
      | some q =>
        exact Firing.all_map (Firing.All.imp (ih q.1) fun _ => (h0.trans h1).trans) _

/-- A firing pass. -/
theorem fireDue_follows (p : Platform) : Firing.All p.Follows (fireDue p) := fireRounds_follows _ p

end Sys2Proof.Machine
end

