-- ==== Sys2Proof/Laws/Bus.lean ====
section
/-! SUPPORT. The bus in the terms of numbers and of the buffers: alignment, big-endian assembly, an access
by the owner of its address, a register of the on-chip block written whole, and a DMA controller
with at most one channel enabled. -/

namespace Sys2Proof.Machine

/-! ### Alignment and byte order -/

theorem Size.aligned_iff {z : Size} {a : Word} : z.aligned a = true ↔ a.toNat % z.bytes = 0 := by
  cases z
  · simp [Size.aligned, Size.bytes]; omega
  · simp [Size.aligned, Size.bytes, ← BitVec.toNat_inj]
  · simp [Size.aligned, Size.bytes, ← BitVec.toNat_inj]

theorem Size.not_aligned_iff {z : Size} {a : Word} :
    z.aligned a = false ↔ ¬ a.toNat % z.bytes = 0 := by
  rw [← Size.aligned_iff]; simp

theorem joinBytes_one (b : Byte) : (joinBytes [b]).toNat = b.toNat := by
  simp [joinBytes]; omega

/-- One more byte at the low end. -/
theorem joinBytes_push (x : Word) (b : Byte) (h : x.toNat < 2 ^ 24) :
    ((x <<< 8) ||| b.setWidth 32).toNat = 256 * x.toNat + b.toNat := by
  rw [BitVec.toNat_or, BitVec.toNat_shiftLeft, Nat.shiftLeft_eq, Nat.mod_eq_of_lt (by omega),
    ← Nat.shiftLeft_eq, ← Nat.shiftLeft_add_eq_or_of_lt (by simp; omega), Nat.shiftLeft_eq]
  simp; omega

theorem joinBytes_two (a b : Byte) : (joinBytes [a, b]).toNat = 256 * a.toNat + b.toNat := by
  rw [show joinBytes [a, b] = (joinBytes [a] <<< 8) ||| b.setWidth 32 from rfl,
    joinBytes_push _ _ (by rw [joinBytes_one]; omega), joinBytes_one]

theorem joinBytes_three (a b c : Byte) :
    (joinBytes [a, b, c]).toNat = 65536 * a.toNat + 256 * b.toNat + c.toNat := by
  rw [show joinBytes [a, b, c] = (joinBytes [a, b] <<< 8) ||| c.setWidth 32 from rfl,
    joinBytes_push _ _ (by rw [joinBytes_two]; omega), joinBytes_two]; omega

theorem joinBytes_four (a b c d : Byte) :
    (joinBytes [a, b, c, d]).toNat =
      16777216 * a.toNat + 65536 * b.toNat + 256 * c.toNat + d.toNat := by
  rw [show joinBytes [a, b, c, d] = (joinBytes [a, b, c] <<< 8) ||| d.setWidth 32 from rfl,
    joinBytes_push _ _ (by rw [joinBytes_three]; omega), joinBytes_three]; omega

theorem splitBytes_length (n : Nat) (v : Word) : (splitBytes n v).length = n := by
  induction n with
  | zero => rfl
  | succ n ih => simp [splitBytes, ih]

theorem splitBytes_getD {n k : Nat} (v : Word) (h : k < n) :
    ((splitBytes n v).getD k 0).toNat = v.toNat / 256 ^ (n - 1 - k) % 256 := by
  induction n generalizing k with
  | zero => omega
  | succ n ih =>
    cases k with
    | zero => simp [splitBytes, Nat.shiftRight_eq_div_pow, Nat.pow_mul]
    | succ k =>
      simp only [splitBytes, List.getD_cons_succ]
      rw [ih (by omega)]; congr 3; omega

/-! ### An access by the owner of its address -/

/-- The owner of an address depends on the parameters and the page table alone. -/
theorem Platform.target_congr {p q : Platform} (h1 : q.params = p.params)
    (h2 : q.pageTable = p.pageTable) (t : Nat) : q.target t = p.target t := by
  unfold Platform.target Platform.firstDevice Platform.deviceAt Platform.inOnchip; rw [h1, h2]

/-- A buffer owns an address exactly when the page table has an entry for it (R80). -/
theorem Platform.target_buffer {p : Platform} {t : Nat} {e : PageEntry} :
    p.target t = .buffer e ↔ p.pageTable.lookup t = some e := by
  unfold Platform.target
  split
  · next h => simp [h]
  · next h =>
    rw [h]
    constructor
    · intro h'; split at h' <;> try split at h' <;> try split at h'
      all_goals cases h'
    · intro h'; cases h'

/-- The place of an address that a buffer owns. -/
theorem Platform.place_of_buffer {p : Platform} {a : Word} {e : PageEntry}
    (h : p.target (physical a) = .buffer e) : p.place? a = some (e.place (physical a)) := by
  unfold Platform.place?; rw [Platform.target_buffer.1 h]; rfl

theorem read_of_buffer {p : Platform} {a : Word} {e : PageEntry} (z : Size)
    (h : p.target (physical a) = .buffer e) :
    p.read z a = (joinBytes (p.mem.readBytes p.pageTable (e.place (physical a)) z.bytes), p) := by
  simp [Platform.read, Platform.readBytes, h]

theorem writeWith_of_writable {p : Platform} {a : Word} {e : PageEntry} (check : Platform → Io)
    (z : Size) (v : Word) (h : p.target (physical a) = .buffer e) (hw : e.writable = true) :
    p.writeWith check z a v =
      .ok { p with mem := Memory.writeBytes p.pageTable p.mem (e.place (physical a))
                      (splitBytes z.bytes v) } := by
  simp [Platform.writeWith, h, hw]

theorem writeWith_of_readOnly {p : Platform} {a : Word} {e : PageEntry} (check : Platform → Io)
    (z : Size) (v : Word) (h : p.target (physical a) = .buffer e) (hw : e.writable = false) :
    p.writeWith check z a v = .raise (.romWrite a) p := by
  simp [Platform.writeWith, h, hw]

theorem writeWith_of_onchip {p : Platform} {a : Word} {off : Nat} (check : Platform → Io)
    (z : Size) (v : Word) (h : p.target (physical a) = .onchip off) :
    p.writeWith check z a v = p.writeOnchip check off (splitBytes z.bytes v) := by
  simp [Platform.writeWith, h]

/-- An access that touches one on-chip register stores it and then runs its action. -/
theorem write_onchipReg {p : Platform} {a v : Word} {z : Size} {r : OnchipReg}
    (h : p.target (physical a) = .onchip r.offset) (ht : touched r.offset z.bytes = [r]) :
    p.write z a v =
      (storeReg r (p.merged r r.offset (splitBytes z.bytes v)) p).bind fun q =>
        (regAction checkActivations r (p.merged r r.offset (splitBytes z.bytes v)) q).bind .ok := by
  unfold Platform.write
  rw [writeWith_of_onchip _ _ _ h]
  unfold Platform.writeOnchip
  rw [splitBytes_length, ht]
  simp only [List.map_cons, List.map_nil, storeAll]
  generalize p.merged r r.offset (splitBytes z.bytes v) = x
  cases storeReg r x p <;> rfl

theorem merged_word (p : Platform) (r : OnchipReg) (v : Word) (h : r.width = 2) :
    p.merged r r.offset (splitBytes Size.word.bytes v) = (v.setWidth 16).setWidth 32 := by
  have hl : ((List.range 2).map fun i =>
      if r.offset ≤ r.offset + i ∧ r.offset + i < r.offset + (splitBytes 2 v).length then
        (splitBytes 2 v).getD (r.offset + i - r.offset) 0 else p.onchipLane r i) =
      splitBytes 2 v := by
    simp [List.range_succ, splitBytes]
  show p.merged r r.offset (splitBytes 2 v) = _
  unfold Platform.merged
  rw [h, hl]
  apply BitVec.eq_of_toNat_eq
  refine (joinBytes_two _ _).trans ?_
  simp [Nat.shiftRight_eq_div_pow]
  omega

theorem merged_byte (p : Platform) (r : OnchipReg) (v : Word) (h : r.width = 1) :
    p.merged r r.offset (splitBytes Size.byte.bytes v) = (v.setWidth 8).setWidth 32 := by
  have hl : ((List.range 1).map fun i =>
      if r.offset ≤ r.offset + i ∧ r.offset + i < r.offset + (splitBytes 1 v).length then
        (splitBytes 1 v).getD (r.offset + i - r.offset) 0 else p.onchipLane r i) =
      splitBytes 1 v := by
    simp [List.range_succ, splitBytes]
  show p.merged r r.offset (splitBytes 1 v) = _
  unfold Platform.merged
  rw [h, hl]
  apply BitVec.eq_of_toNat_eq
  refine (joinBytes_one _).trans ?_
  simp; omega

/-- A word read of a two-byte register is the register's value. -/
theorem read_onchipWord {p : Platform} {a : Word} {r : OnchipReg}
    (h : p.target (physical a) = .onchip r.offset) (hw : r.width = 2)
    (h0 : onchipRegAt r.offset = some r) (h1 : onchipRegAt (r.offset + 1) = some r)
    (hx : p.onchipValue r = ((p.onchipValue r).setWidth 16).setWidth 32) :
    (p.read .word a).1 = p.onchipValue r := by
  have hl : (p.read .word a).1 = joinBytes (splitBytes 2 (p.onchipValue r)) := by
    simp only [Platform.read, Platform.readBytes, h]
    show joinBytes (p.onchipBytes 2 _).1 = _
    simp only [Platform.onchipBytes, Platform.onchipByte, h0, h1, Platform.onchipLane, hw]
    simp [splitBytes]
  rw [hl]
  apply BitVec.eq_of_toNat_eq
  refine (joinBytes_two _ _).trans ?_
  have := congrArg BitVec.toNat hx
  simp at this
  simp [Nat.shiftRight_eq_div_pow]
  omega

/-! ### A DMA controller with at most one channel enabled -/

/-- A channel that is not enabled is not activated. -/
theorem activate_of_disabled {check : Platform → Io} {c : Fin 4} {p : Platform}
    (h : (p.chan c).de = false) : activate check c p = .ok p := by
  unfold activate; simp [h]

/-- A channel that is running is not activated again. -/
theorem activate_of_active {check : Platform → Io} {c : Fin 4} {p : Platform}
    (h : (p.chan c).active = true) : activate check c p = .ok p := by
  unfold activate; simp [h]

/-- A channel whose request line is not asserted is not activated. -/
theorem activate_of_not_requested {check : Platform → Io} {c : Fin 4} {p : Platform}
    (h : p.requested c = false) : activate check c p = .ok p := by
  unfold activate; simp [h]

/-- Where no other channel is enabled, and `c` does not enable one, all rounds come to the round of `c`. -/
theorem activateAll_of_only {check : Platform → Io} {p : Platform} {c : Fin 4} {r : Io}
    (others : ∀ d, d ≠ c → (p.chan d).de = false) (round : activate check c p = r)
    (after : ∀ q, r = .ok q → ∀ d, d ≠ c → (q.chan d).de = false) :
    activateAll check [0, 1, 2, 3] p = r := by
  have idle : ∀ (l : List (Fin 4)) (q : Platform), c ∉ l → (∀ d, d ≠ c → (q.chan d).de = false) →
      activateAll check l q = .ok q := by
    intro l q
    induction l with
    | nil => exact fun _ _ => rfl
    | cons d l ih =>
      intro hc hq
      rw [List.mem_cons, not_or] at hc
      simp only [activateAll, activate_of_disabled (hq d (Ne.symm hc.1)), Io.bind]
      exact ih hc.2 hq
  have once : ∀ l : List (Fin 4), l.Nodup → c ∈ l → activateAll check l p = r := by
    intro l
    induction l with
    | nil => exact fun _ h => nomatch h
    | cons d l ih =>
      intro hn hm
      rw [List.nodup_cons] at hn
      by_cases hd : d = c
      · subst hd
        simp only [activateAll, round]
        cases r with
        | ok q => exact idle l q hn.1 (after q rfl)
        | raise => rfl
        | hang => rfl
      · have hm : c ∈ l := by simpa [Ne.symm hd] using hm
        simp only [activateAll, activate_of_disabled (others d hd), Io.bind]
        exact ih hn.2 hm
  exact once _ (by decide) (by clear * -; revert c; decide)

/-- While the only enabled channel runs, a re-entrant `check_activations` does nothing. -/
theorem checkActivationsAt_of_active {p : Platform} {c : Fin 4} (depth : Nat)
    (running : (p.chan c).active = true) (others : ∀ d, d ≠ c → (p.chan d).de = false) :
    checkActivationsAt depth p = .ok p := by
  cases depth with
  | zero => rfl
  | succ depth =>
    exact activateAll_of_only others (activate_of_active running) fun q h => by cases h; exact others

/-- With no channel enabled nothing is activated. -/
theorem checkActivations_of_disabled {p : Platform} (h : ∀ c, (p.chan c).de = false) :
    checkActivations p = .ok p :=
  activateAll_of_only (c := 0) (fun d _ => h d) (activate_of_disabled (h 0))
    fun q hq => by cases hq; exact fun d _ => h d

end Sys2Proof.Machine
end

