-- ==== Sys2Proof/Laws/Decode.lean ====
section
/-! SUPPORT. The nibbles of a word and the fields made of them, as numbers: taking a word apart and
putting it together are inverse. -/

namespace Sys2Proof

/-! ### As numbers -/

theorem append_toNat {n m : Nat} (x : BitVec n) (y : BitVec m) :
    (x ++ y).toNat = x.toNat * 2 ^ m + y.toNat := by
  rw [BitVec.toNat_append, ← Nat.shiftLeft_add_eq_or_of_lt y.isLt, Nat.shiftLeft_eq]

theorem word_toNat (a x y z : Reg) :
    (word a x y z).toNat = 4096 * a.toNat + 256 * x.toNat + 16 * y.toNat + z.toNat := by
  refine (append_toNat (a ++ x) (y ++ z)).trans ?_
  rw [append_toNat a x, append_toNat y z]
  omega

theorem nibble_toNat (w : Half) (k : Nat) : (nibble w k).toNat = w.toNat / 2 ^ (4 * k) % 16 := by
  simp [nibble, Nat.shiftRight_eq_div_pow]

theorem field8_toNat (a b : Reg) : (field8 a b).toNat = 16 * a.toNat + b.toNat :=
  (append_toNat a b).trans (by omega)

theorem field12_toNat (a b c : Reg) :
    (field12 a b c).toNat = 256 * a.toNat + 16 * b.toNat + c.toNat := by
  refine (append_toNat a (b ++ c)).trans ?_
  rw [append_toNat b c]
  omega

theorem hi8_toNat (v : BitVec 8) : (hi8 v).toNat = v.toNat / 16 := by
  simp [hi8, Nat.shiftRight_eq_div_pow]; omega

theorem lo8_toNat (v : BitVec 8) : (lo8 v).toNat = v.toNat % 16 := by
  simp [lo8]

theorem hi12_toNat (v : BitVec 12) : (hi12 v).toNat = v.toNat / 256 := by
  simp [hi12, Nat.shiftRight_eq_div_pow]; omega

theorem mid12_toNat (v : BitVec 12) : (mid12 v).toNat = v.toNat / 16 % 16 := by
  simp [mid12, Nat.shiftRight_eq_div_pow]

theorem lo12_toNat (v : BitVec 12) : (lo12 v).toNat = v.toNat % 16 := by
  simp [lo12]

/-! ### Words and their nibbles -/

@[simp] theorem nibble_word_3 (a x y z : Reg) : nibble (word a x y z) 3 = a := by
  apply BitVec.eq_of_toNat_eq
  rw [nibble_toNat, word_toNat]; omega

@[simp] theorem nibble_word_2 (a x y z : Reg) : nibble (word a x y z) 2 = x := by
  apply BitVec.eq_of_toNat_eq
  rw [nibble_toNat, word_toNat]; omega

@[simp] theorem nibble_word_1 (a x y z : Reg) : nibble (word a x y z) 1 = y := by
  apply BitVec.eq_of_toNat_eq
  rw [nibble_toNat, word_toNat]; omega

@[simp] theorem nibble_word_0 (a x y z : Reg) : nibble (word a x y z) 0 = z := by
  apply BitVec.eq_of_toNat_eq
  rw [nibble_toNat, word_toNat]; omega

/-- A word is the word of its nibbles. -/
theorem word_nibbles (w : Half) : word (nibble w 3) (nibble w 2) (nibble w 1) (nibble w 0) = w := by
  apply BitVec.eq_of_toNat_eq
  rw [word_toNat]
  simp only [nibble_toNat]
  omega

/-- Words of nibbles are equal exactly when their nibbles are. -/
theorem word_inj {a x y z a' x' y' z' : Reg} :
    word a x y z = word a' x' y' z' ↔ a = a' ∧ x = x' ∧ y = y' ∧ z = z' := by
  constructor
  · intro h
    exact ⟨by simpa using congrArg (nibble · 3) h, by simpa using congrArg (nibble · 2) h,
      by simpa using congrArg (nibble · 1) h, by simpa using congrArg (nibble · 0) h⟩
  · rintro ⟨rfl, rfl, rfl, rfl⟩
    rfl

/-- A mask acts nibble by nibble. -/
theorem word_and (a x y z a' x' y' z' : Reg) :
    word a x y z &&& word a' x' y' z' = word (a &&& a') (x &&& x') (y &&& y') (z &&& z') := by
  rw [← word_nibbles (word a x y z &&& word a' x' y' z'), word_inj]
  have h (k : Nat) : nibble (word a x y z &&& word a' x' y' z') k =
      nibble (word a x y z) k &&& nibble (word a' x' y' z') k := by
    simp [nibble, BitVec.extractLsb'_and]
  simp [h]

/-! ### Fields -/

@[simp] theorem field8_hi_lo (v : BitVec 8) : field8 (hi8 v) (lo8 v) = v := by
  apply BitVec.eq_of_toNat_eq
  rw [field8_toNat, hi8_toNat, lo8_toNat]; omega

@[simp] theorem hi8_field8 (a b : Reg) : hi8 (field8 a b) = a := by
  apply BitVec.eq_of_toNat_eq
  rw [hi8_toNat, field8_toNat]; omega

@[simp] theorem lo8_field8 (a b : Reg) : lo8 (field8 a b) = b := by
  apply BitVec.eq_of_toNat_eq
  rw [lo8_toNat, field8_toNat]; omega

@[simp] theorem field12_hi_mid_lo (v : BitVec 12) : field12 (hi12 v) (mid12 v) (lo12 v) = v := by
  apply BitVec.eq_of_toNat_eq
  rw [field12_toNat, hi12_toNat, mid12_toNat, lo12_toNat]; omega

@[simp] theorem hi12_field12 (a b c : Reg) : hi12 (field12 a b c) = a := by
  apply BitVec.eq_of_toNat_eq
  rw [hi12_toNat, field12_toNat]; omega

@[simp] theorem mid12_field12 (a b c : Reg) : mid12 (field12 a b c) = b := by
  apply BitVec.eq_of_toNat_eq
  rw [mid12_toNat, field12_toNat]; omega

@[simp] theorem lo12_field12 (a b c : Reg) : lo12 (field12 a b c) = c := by
  apply BitVec.eq_of_toNat_eq
  rw [lo12_toNat, field12_toNat]; omega

/-! ### Decoding -/

/-- The word a word of four nibbles decodes to, by its nibbles. -/
@[simp] theorem decodeWord_word (a x y z : Reg) :
    decodeWord (word a x y z) = decodeNibbles a x y z := by
  simp [decodeWord]

/-- The two bytes of a word, put together, are the word. -/
theorem bytes_append (w : Half) : (w.extractLsb' 8 8 ++ w.extractLsb' 0 8 : Half) = w := by
  apply BitVec.eq_of_toNat_eq
  refine (append_toNat _ _).trans ?_
  simp [Nat.shiftRight_eq_div_pow]
  omega

end Sys2Proof
end

