-- ==== Sys2Proof/Laws/Ops.lean ====
section
/-! SUPPORT. One lemma for each shared operation that says what it answers: the equations of an operation
whose accesses are made, and, over all its outcomes, that it leaves the platform as a bus operation
does. -/

namespace Sys2Proof.Machine

/-! ### Bus accesses: what they answer -/

/-- An aligned read is made and charged. -/
theorem dataRead_aligned {z : Size} {a : Word} {s : State} (h : z.aligned a = true) :
    dataRead z a s = .ok (s.plat.read z a).1 (s.charge (s.plat.read z a).2 (s.plat.cost a)) := by
  simp [dataRead, h]

/-- An aligned write that the bus accepts is made and charged. -/
theorem dataWrite_ok {z : Size} {a v : Word} {s : State} {p : Platform} (h : z.aligned a = true)
    (hw : s.plat.write z a v = .ok p) :
    dataWrite z a v s = .ok () (s.charge p (s.plat.cost a)) := by
  simp [dataWrite, h, hw]

/-- An aligned write that the bus faults on. -/
theorem dataWrite_raise {z : Size} {a v : Word} {s : State} {r : FaultReason} {p : Platform}
    (h : z.aligned a = true) (hw : s.plat.write z a v = .raise r p) :
    dataWrite z a v s = .raise { reason := r, at_ := s.curAddr } (s.setPlat p) := by
  simp [dataWrite, h, hw]

theorem dataRead_misaligned {z : Size} {a : Word} {s : State} (h : z.aligned a = false) :
    dataRead z a s = s.misaligned a z := by
  simp [dataRead, h]

theorem dataWrite_misaligned {z : Size} {a v : Word} {s : State} (h : z.aligned a = false) :
    dataWrite z a v s = s.misaligned a z := by
  simp [dataWrite, h]

theorem entryRead_aligned {a : Word} {s : State} (h : Size.long.aligned a = true) :
    entryRead a s =
      .ok (s.plat.read .long a).1 (s.charge (s.plat.read .long a).2 (s.plat.cost a)) := by
  simp [entryRead, h]

theorem entryWrite_ok {a v : Word} {s : State} {p : Platform} (h : Size.long.aligned a = true)
    (hw : s.plat.write .long a v = .ok p) :
    entryWrite a v s = .ok () (s.charge p (s.plat.cost a)) := by
  simp [entryWrite, h, hw]

@[simp] theorem Run.bind_ok {α β : Type} (a : α) (s : State) (k : α → State → Run β) :
    (Run.ok a s).bind k = k a s := rfl

@[simp] theorem Run.bind_addressError {α β : Type} (s : State) (k : α → State → Run β) :
    (Run.addressError s : Run α).bind k = .addressError s := rfl

@[simp] theorem Run.bind_raise {α β : Type} (r : FaultRecord) (s : State) (k : α → State → Run β) :
    (Run.raise r s : Run α).bind k = .raise r s := rfl

@[simp] theorem finish_ok (i : Instr) (d : Bool) (s : State) :
    finish i d (.ok () s) = .next (s.retire i d) := rfl

@[simp] theorem finish_addressError (i : Instr) (d : Bool) (s : State) :
    finish i d (.addressError s) = .next s.abandon := rfl

@[simp] theorem Run.bind_hang {α β : Type} (k : α → State → Run β) :
    (Run.hang : Run α).bind k = .hang := rfl

@[simp] theorem finish_hang (i : Instr) (d : Bool) : finish i d .hang = .fault .endless := rfl

@[simp] theorem finish_raise (i : Instr) (d : Bool) (r : FaultRecord) (s : State) :
    finish i d (.raise r s) = s.stop r := rfl

/-- The slot-illegal check passes outside a delay slot. -/
theorem slotGuard_pass {s : State} (body : Answer) (h : s.inDelaySlot = false) :
    slotGuard s body = body := by
  simp [slotGuard, h]

/-- The slot-illegal check faults in a delay slot. -/
theorem slotGuard_stop {s : State} (body : Answer) (h : s.inDelaySlot = true) :
    slotGuard s body = s.stop { reason := .slotIllegal s.curWord, at_ := s.curAddr } := by
  simp [slotGuard, h]

/-! ### Loads and stores: what they answer -/

theorem loadReg_aligned (i : Instr) {z : Size} {a : Word} (n : Reg) {s : State}
    (h : z.aligned a = true) :
    loadReg i z a n s =
      .next (((s.charge (s.plat.read z a).2 (s.plat.cost a)).setReg n
        (z.extend (s.plat.read z a).1)).retire i false) := by
  simp [loadReg, dataRead_aligned h]

theorem storeValue_ok (i : Instr) {z : Size} {a v : Word} {s : State} {p : Platform}
    (h : z.aligned a = true) (hw : s.plat.write z a v = .ok p) :
    storeValue i z a v s = .next ((s.charge p (s.plat.cost a)).retire i false) := by
  simp [storeValue, dataWrite_ok h hw]

theorem pushValue_ok (i : Instr) {z : Size} {v : Word} {n : Reg} {s : State} {p : Platform}
    (h : z.aligned (eaPreDec z (s.reg n)) = true)
    (hw : s.plat.write z (eaPreDec z (s.reg n)) v = .ok p) :
    pushValue i z v n s =
      .next (((s.charge p (s.plat.cost (eaPreDec z (s.reg n)))).setReg n
        (eaPreDec z (s.reg n))).retire i false) := by
  simp [pushValue, dataWrite_ok h hw]

theorem popReg_aligned (i : Instr) {z : Size} {m : Reg} (n : Reg) {s : State}
    (h : z.aligned (s.reg m) = true) :
    popReg i z m n s =
      .next ((((s.charge (s.plat.read z (s.reg m)).2 (s.plat.cost (s.reg m))).setReg m
        (postInc z (s.reg m))).setReg n (z.extend (s.plat.read z (s.reg m)).1)).retire i false) := by
  simp [popReg, dataRead_aligned h]

theorem popControl_aligned (i : Instr) {m : Reg} (put : State → Word → State) {s : State}
    (h : Size.long.aligned (s.reg m) = true) :
    popControl i m put s =
      .next ((put ((s.charge (s.plat.read .long (s.reg m)).2 (s.plat.cost (s.reg m))).setReg m
        (postInc .long (s.reg m))) (s.plat.read .long (s.reg m)).1).retire i false) := by
  simp [popControl, dataRead_aligned h]

/-! ### Over all outcomes -/

/-- What holds of the state an answer leaves, whether it goes on or stops. -/
def Answer.All (P : State → Prop) : Answer → Prop
  | .next s => P s
  | .fault (.raised _ s) => P s
  | .fault .endless => True
  | .refused _ => True

/-- What holds of the state a part leaves, whether it goes on or stops. -/
def Run.All {α : Type} (P : State → Prop) : Run α → Prop
  | .ok _ s => P s
  | .addressError s => P s
  | .raise _ s => P s
  | .hang => True

/-- What holds of every state a part may leave holds of the one it leaves. -/
theorem Run.All.imp {α : Type} {P Q : State → Prop} {r : Run α} (hr : r.All P)
    (h : ∀ s, P s → Q s) : r.All Q := by
  cases r with
  | ok _ s => exact h s hr
  | addressError s => exact h s hr
  | raise _ s => exact h s hr
  | hang => trivial

/-- What every part of an instruction guarantees: the platform is one that bus operations lead to, and
only the kept bits of MACH are written. -/
structure State.Follows (s t : State) : Prop where
  plat : s.plat.Follows t.plat
  mach : (s.plat.params.machBits = .bits10 → s.mach &&& 0xFFFFFC00 = 0) →
    s.plat.params.machBits = .bits10 → t.mach &&& 0xFFFFFC00 = 0

theorem State.Follows.refl (s : State) : s.Follows s := ⟨.refl _, id⟩

theorem State.Follows.trans {s t u : State} (h : s.Follows t) (h' : t.Follows u) : s.Follows u := by
  refine ⟨h.plat.trans h'.plat, fun hm hb => ?_⟩
  have e : t.plat.params.machBits = s.plat.params.machBits := by rw [h.plat.params]
  exact h'.mach (fun h10 => h.mach hm (e ▸ h10)) (e.trans hb)

/-- A change of a state that keeps the platform and MACH. -/
theorem State.Follows.of_eq {s t : State} (hp : t.plat = s.plat) (hm : t.mach = s.mach) :
    s.Follows t :=
  ⟨hp ▸ .refl _, fun h => hm ▸ h⟩

theorem State.Follows.of_plat {s t : State} (hp : s.plat.Follows t.plat) (hm : t.mach = s.mach) :
    s.Follows t :=
  ⟨hp, fun h => hm ▸ h⟩

/-- A change of a state that keeps the platform and MACH, before another part. -/
theorem State.Follows.after {s t u : State} (h : t.Follows u) (hp : t.plat = s.plat)
    (hm : t.mach = s.mach) : s.Follows u :=
  (State.Follows.of_eq hp hm).trans h

/-- The invariant goes along. -/
theorem State.Follows.inv {s t : State} (h : s.Follows t) (hs : s.Inv) : t.Inv := by
  refine ⟨h.plat.inv hs.plat, fun hb => ?_, h.plat.hooks ▸ hs.hooks⟩
  rw [h.plat.params] at hb
  exact h.mach hs.mach hb

/-- MACH keeps ten bits at most under `MACH_BITS = 10`. -/
theorem keptMach_high (v : Word) : keptMach .bits10 v &&& 0xFFFFFC00 = 0 := by
  apply BitVec.eq_of_getLsbD_eq
  intro i hi
  interval_cases i <;> simp [keptMach]

theorem setMach_follows (s : State) (v : Word) : s.Follows (s.setMach v) := by
  refine ⟨.refl _, fun _ hb => ?_⟩
  rw [State.setMach_mach, hb]
  exact keptMach_high v

theorem setMac_follows (s : State) (v : BitVec 64) : s.Follows (s.setMac v) :=
  (setMach_follows s _).trans (.of_eq rfl rfl)

theorem Run.all_bind {α β : Type} {s : State} {r : Run α} {k : α → State → Run β}
    (hr : r.All s.Follows) (hk : ∀ a t, (k a t).All t.Follows) : (r.bind k).All s.Follows := by
  cases r with
  | ok a t => exact Run.All.imp (hk a t) fun _ => State.Follows.trans hr
  | addressError t => exact hr
  | raise f t => exact hr
  | hang => trivial

theorem dataRead_follows (z : Size) (a : Word) (s : State) : (dataRead z a s).All s.Follows := by
  unfold dataRead
  split
  · exact .of_plat (read_follows z a s.plat) rfl
  · unfold State.misaligned
    split <;> exact .refl s

theorem dataWrite_follows (z : Size) (a v : Word) (s : State) :
    (dataWrite z a v s).All s.Follows := by
  unfold dataWrite
  split
  · have h := write_follows z a v s.plat
    split
    · next e => rw [e] at h; exact .of_plat h rfl
    · next e => rw [e] at h; exact .of_plat h rfl
    · trivial
  · unfold State.misaligned
    split <;> exact .refl s

theorem entryRead_follows (a : Word) (s : State) : (entryRead a s).All s.Follows := by
  unfold entryRead
  split
  · exact .of_plat (read_follows .long a s.plat) rfl
  · exact .refl s

theorem entryWrite_follows (a v : Word) (s : State) : (entryWrite a v s).All s.Follows := by
  unfold entryWrite
  split
  · have h := write_follows .long a v s.plat
    split
    · next e => rw [e] at h; exact .of_plat h rfl
    · next e => rw [e] at h; exact .of_plat h rfl
    · trivial
  · exact .refl s

theorem finish_follows (i : Instr) (d : Bool) {s : State} {r : Run Unit} (h : r.All s.Follows) :
    (finish i d r).All s.Follows := by
  cases r with
  | ok a t => exact State.Follows.trans h (.of_eq rfl rfl)
  | addressError t => exact State.Follows.trans h (.of_eq rfl rfl)
  | raise f t => exact State.Follows.trans h (.of_eq rfl rfl)
  | hang => trivial

theorem done_follows (i : Instr) {s t : State} (h : s.Follows t) : (done i t).All s.Follows :=
  h.trans (.of_eq rfl rfl)

theorem delayedBranch_follows (i : Instr) (a : Word) {s t : State} (h : s.Follows t) :
    (delayedBranch i a t).All s.Follows :=
  h.trans (.of_eq rfl rfl)

theorem takenBranch_follows (i : Instr) (a : Word) {s t : State} (h : s.Follows t) :
    (takenBranch i a t).All s.Follows :=
  h.trans (.of_eq rfl rfl)

theorem slotGuard_follows {s : State} {body : Answer} (h : body.All s.Follows) :
    (slotGuard s body).All s.Follows := by
  unfold slotGuard
  split
  · exact .of_eq rfl rfl
  · exact h

theorem loadReg_follows (i : Instr) (z : Size) (a : Word) (n : Reg) (s : State) :
    (loadReg i z a n s).All s.Follows :=
  finish_follows i false (Run.all_bind (dataRead_follows z a s) fun _ _ => .of_eq rfl rfl)

theorem storeValue_follows (i : Instr) (z : Size) (a v : Word) (s : State) :
    (storeValue i z a v s).All s.Follows :=
  finish_follows i false (dataWrite_follows z a v s)

theorem pushValue_follows (i : Instr) (z : Size) (v : Word) (n : Reg) (s : State) :
    (pushValue i z v n s).All s.Follows :=
  finish_follows i false (Run.all_bind (dataWrite_follows z _ v s) fun _ _ => .of_eq rfl rfl)

theorem popReg_follows (i : Instr) (z : Size) (m n : Reg) (s : State) :
    (popReg i z m n s).All s.Follows :=
  finish_follows i false (Run.all_bind (dataRead_follows z _ s) fun _ _ => .of_eq rfl rfl)

theorem popControl_follows (i : Instr) (m : Reg) {put : State → Word → State}
    (hput : ∀ s v, State.Follows s (put s v)) (s : State) : (popControl i m put s).All s.Follows :=
  finish_follows i false (Run.all_bind (dataRead_follows .long _ s) fun _ _ =>
    (hput _ _).after rfl rfl)

theorem modifyByte_follows (i : Instr) (a : Word) (f : Word → Word) {flags : Word → State → State}
    (hf : ∀ v s, State.Follows s (flags v s)) (s : State) :
    (modifyByte i a f flags s).All s.Follows :=
  finish_follows i false (Run.all_bind (dataRead_follows .byte a s) fun _ t =>
    Run.all_bind (dataWrite_follows .byte a _ t) fun _ u => hf _ u)

theorem macOperands_follows (i : Instr) (z : Size) (m n : Reg) {use : Word → Word → State → State}
    (hu : ∀ x y s, State.Follows s (use x y s)) (s : State) :
    (macOperands i z m n use s).All s.Follows :=
  finish_follows i false (Run.all_bind (dataRead_follows z _ s) fun _ t =>
    Run.all_bind (dataRead_follows z _ t) fun _ _ =>
      (hu _ _ _).after rfl rfl)

theorem macWord_follows (x y : Half) (s : State) : s.Follows (macWord x y s) := by
  unfold macWord
  split
  · dsimp only
    split
    · exact (setMach_follows _ _).after rfl rfl
    · exact .of_eq rfl rfl
  · exact setMac_follows s _

theorem enterException_follows (v : BitVec 8) (m : Option Nat) (s : State) :
    (enterException v m s).All s.Follows :=
  Run.all_bind (entryWrite_follows _ _ s) fun _ t =>
    Run.all_bind (entryWrite_follows _ _ t) fun _ u =>
      Run.all_bind (entryRead_follows _ u) fun _ _ => .of_eq (by simp) (by simp)

theorem returnFromException_follows (i : Instr) (s : State) :
    (returnFromException i s).All s.Follows :=
  finish_follows i true (Run.all_bind (dataRead_follows .long _ s) fun _ t =>
    Run.all_bind (dataRead_follows .long _ t) fun _ _ => .of_eq rfl rfl)

end Sys2Proof.Machine
end

