-- ==== Sys2Proof/Laws/Exec.lean ====
section
/-! SUPPORT. What every instruction guarantees of the state it leaves, over all its outcomes. -/

namespace Sys2Proof.Machine

/-- A conditional branch leaves the platform and MACH alone. -/
theorem branch_follows {c : Prop} [Decidable c] {a b : Answer} {s : State} (ha : a.All s.Follows)
    (hb : b.All s.Follows) : (slotGuard s (if c then a else b)).All s.Follows := by
  refine slotGuard_follows ?_
  split <;> assumption

theorem execSleep_follows (s : State) : (execSleep s).All s.Follows := by
  unfold execSleep
  split
  · exact done_follows _ (.of_eq rfl rfl)
  · exact takenBranch_follows _ _ (.refl s)

/-- Every instruction leaves a platform that bus operations lead to, and writes only the kept bits of
MACH. -/
theorem exec_follows (i : Instr) (s : State) : Answer.All s.Follows (exec i s) := by
  cases i with
  | movImm imm n =>
    show Answer.All _ (execMovImm imm n s)
    unfold execMovImm
    exact done_follows _ (.of_eq rfl rfl)
  | movWPc d n =>
    show Answer.All _ (execMovWPc d n s)
    unfold execMovWPc
    exact loadReg_follows _ _ _ _ s
  | movLPc d n =>
    show Answer.All _ (execMovLPc d n s)
    unfold execMovLPc
    exact loadReg_follows _ _ _ _ s
  | mov m n =>
    show Answer.All _ (execMov m n s)
    unfold execMov
    exact done_follows _ (.of_eq rfl rfl)
  | movBStore m n =>
    show Answer.All _ (execMovBStore m n s)
    unfold execMovBStore
    exact storeValue_follows _ _ _ _ s
  | movWStore m n =>
    show Answer.All _ (execMovWStore m n s)
    unfold execMovWStore
    exact storeValue_follows _ _ _ _ s
  | movLStore m n =>
    show Answer.All _ (execMovLStore m n s)
    unfold execMovLStore
    exact storeValue_follows _ _ _ _ s
  | movBLoad m n =>
    show Answer.All _ (execMovBLoad m n s)
    unfold execMovBLoad
    exact loadReg_follows _ _ _ _ s
  | movWLoad m n =>
    show Answer.All _ (execMovWLoad m n s)
    unfold execMovWLoad
    exact loadReg_follows _ _ _ _ s
  | movLLoad m n =>
    show Answer.All _ (execMovLLoad m n s)
    unfold execMovLLoad
    exact loadReg_follows _ _ _ _ s
  | movBPreDec m n =>
    show Answer.All _ (execMovBPreDec m n s)
    unfold execMovBPreDec
    exact pushValue_follows _ _ _ _ s
  | movWPreDec m n =>
    show Answer.All _ (execMovWPreDec m n s)
    unfold execMovWPreDec
    exact pushValue_follows _ _ _ _ s
  | movLPreDec m n =>
    show Answer.All _ (execMovLPreDec m n s)
    unfold execMovLPreDec
    exact pushValue_follows _ _ _ _ s
  | movBPostInc m n =>
    show Answer.All _ (execMovBPostInc m n s)
    unfold execMovBPostInc
    exact popReg_follows _ _ _ _ s
  | movWPostInc m n =>
    show Answer.All _ (execMovWPostInc m n s)
    unfold execMovWPostInc
    exact popReg_follows _ _ _ _ s
  | movLPostInc m n =>
    show Answer.All _ (execMovLPostInc m n s)
    unfold execMovLPostInc
    exact popReg_follows _ _ _ _ s
  | movBStoreDisp d n =>
    show Answer.All _ (execMovBStoreDisp d n s)
    unfold execMovBStoreDisp
    exact storeValue_follows _ _ _ _ s
  | movWStoreDisp d n =>
    show Answer.All _ (execMovWStoreDisp d n s)
    unfold execMovWStoreDisp
    exact storeValue_follows _ _ _ _ s
  | movLStoreDisp m d n =>
    show Answer.All _ (execMovLStoreDisp m d n s)
    unfold execMovLStoreDisp
    exact storeValue_follows _ _ _ _ s
  | movBLoadDisp d m =>
    show Answer.All _ (execMovBLoadDisp d m s)
    unfold execMovBLoadDisp
    exact loadReg_follows _ _ _ _ s
  | movWLoadDisp d m =>
    show Answer.All _ (execMovWLoadDisp d m s)
    unfold execMovWLoadDisp
    exact loadReg_follows _ _ _ _ s
  | movLLoadDisp d m n =>
    show Answer.All _ (execMovLLoadDisp d m n s)
    unfold execMovLLoadDisp
    exact loadReg_follows _ _ _ _ s
  | movBStoreIdx m n =>
    show Answer.All _ (execMovBStoreIdx m n s)
    unfold execMovBStoreIdx
    exact storeValue_follows _ _ _ _ s
  | movWStoreIdx m n =>
    show Answer.All _ (execMovWStoreIdx m n s)
    unfold execMovWStoreIdx
    exact storeValue_follows _ _ _ _ s
  | movLStoreIdx m n =>
    show Answer.All _ (execMovLStoreIdx m n s)
    unfold execMovLStoreIdx
    exact storeValue_follows _ _ _ _ s
  | movBLoadIdx m n =>
    show Answer.All _ (execMovBLoadIdx m n s)
    unfold execMovBLoadIdx
    exact loadReg_follows _ _ _ _ s
  | movWLoadIdx m n =>
    show Answer.All _ (execMovWLoadIdx m n s)
    unfold execMovWLoadIdx
    exact loadReg_follows _ _ _ _ s
  | movLLoadIdx m n =>
    show Answer.All _ (execMovLLoadIdx m n s)
    unfold execMovLLoadIdx
    exact loadReg_follows _ _ _ _ s
  | movBStoreGbr d =>
    show Answer.All _ (execMovBStoreGbr d s)
    unfold execMovBStoreGbr
    exact storeValue_follows _ _ _ _ s
  | movWStoreGbr d =>
    show Answer.All _ (execMovWStoreGbr d s)
    unfold execMovWStoreGbr
    exact storeValue_follows _ _ _ _ s
  | movLStoreGbr d =>
    show Answer.All _ (execMovLStoreGbr d s)
    unfold execMovLStoreGbr
    exact storeValue_follows _ _ _ _ s
  | movBLoadGbr d =>
    show Answer.All _ (execMovBLoadGbr d s)
    unfold execMovBLoadGbr
    exact loadReg_follows _ _ _ _ s
  | movWLoadGbr d =>
    show Answer.All _ (execMovWLoadGbr d s)
    unfold execMovWLoadGbr
    exact loadReg_follows _ _ _ _ s
  | movLLoadGbr d =>
    show Answer.All _ (execMovLLoadGbr d s)
    unfold execMovLLoadGbr
    exact loadReg_follows _ _ _ _ s
  | mova d =>
    show Answer.All _ (execMova d s)
    unfold execMova
    exact done_follows _ (.of_eq rfl rfl)
  | movt n =>
    show Answer.All _ (execMovt n s)
    unfold execMovt
    exact done_follows _ (.of_eq rfl rfl)
  | swapB m n =>
    show Answer.All _ (execSwapB m n s)
    unfold execSwapB
    exact done_follows _ (.of_eq rfl rfl)
  | swapW m n =>
    show Answer.All _ (execSwapW m n s)
    unfold execSwapW
    exact done_follows _ (.of_eq rfl rfl)
  | xtrct m n =>
    show Answer.All _ (execXtrct m n s)
    unfold execXtrct
    exact done_follows _ (.of_eq rfl rfl)
  | add m n =>
    show Answer.All _ (execAdd m n s)
    unfold execAdd
    exact done_follows _ (.of_eq rfl rfl)
  | addImm imm n =>
    show Answer.All _ (execAddImm imm n s)
    unfold execAddImm
    exact done_follows _ (.of_eq rfl rfl)
  | addc m n =>
    show Answer.All _ (execAddc m n s)
    unfold execAddc
    exact done_follows _ (.of_eq rfl rfl)
  | addv m n =>
    show Answer.All _ (execAddv m n s)
    unfold execAddv
    exact done_follows _ (.of_eq rfl rfl)
  | cmpEqImm imm =>
    show Answer.All _ (execCmpEqImm imm s)
    unfold execCmpEqImm
    exact done_follows _ (.of_eq rfl rfl)
  | cmpEq m n =>
    show Answer.All _ (execCmpEq m n s)
    unfold execCmpEq
    exact done_follows _ (.of_eq rfl rfl)
  | cmpHs m n =>
    show Answer.All _ (execCmpHs m n s)
    unfold execCmpHs
    exact done_follows _ (.of_eq rfl rfl)
  | cmpGe m n =>
    show Answer.All _ (execCmpGe m n s)
    unfold execCmpGe
    exact done_follows _ (.of_eq rfl rfl)
  | cmpHi m n =>
    show Answer.All _ (execCmpHi m n s)
    unfold execCmpHi
    exact done_follows _ (.of_eq rfl rfl)
  | cmpGt m n =>
    show Answer.All _ (execCmpGt m n s)
    unfold execCmpGt
    exact done_follows _ (.of_eq rfl rfl)
  | cmpPz n =>
    show Answer.All _ (execCmpPz n s)
    unfold execCmpPz
    exact done_follows _ (.of_eq rfl rfl)
  | cmpPl n =>
    show Answer.All _ (execCmpPl n s)
    unfold execCmpPl
    exact done_follows _ (.of_eq rfl rfl)
  | cmpStr m n =>
    show Answer.All _ (execCmpStr m n s)
    unfold execCmpStr
    exact done_follows _ (.of_eq rfl rfl)
  | div1 m n =>
    show Answer.All _ (execDiv1 m n s)
    unfold execDiv1
    exact done_follows _ (.of_eq rfl rfl)
  | div0s m n =>
    show Answer.All _ (execDiv0s m n s)
    unfold execDiv0s
    exact done_follows _ (.of_eq rfl rfl)
  | div0u =>
    show Answer.All _ (execDiv0u s)
    unfold execDiv0u
    exact done_follows _ (.of_eq rfl rfl)
  | dmulsL m n =>
    show Answer.All _ (execDmulsL m n s)
    unfold execDmulsL
    exact done_follows _ (setMac_follows s _)
  | dmuluL m n =>
    show Answer.All _ (execDmuluL m n s)
    unfold execDmuluL
    exact done_follows _ (setMac_follows s _)
  | dt n =>
    show Answer.All _ (execDt n s)
    unfold execDt
    exact done_follows _ (.of_eq rfl rfl)
  | extsB m n =>
    show Answer.All _ (execExtsB m n s)
    unfold execExtsB
    exact done_follows _ (.of_eq rfl rfl)
  | extsW m n =>
    show Answer.All _ (execExtsW m n s)
    unfold execExtsW
    exact done_follows _ (.of_eq rfl rfl)
  | extuB m n =>
    show Answer.All _ (execExtuB m n s)
    unfold execExtuB
    exact done_follows _ (.of_eq rfl rfl)
  | extuW m n =>
    show Answer.All _ (execExtuW m n s)
    unfold execExtuW
    exact done_follows _ (.of_eq rfl rfl)
  | macL m n =>
    show Answer.All _ (execMacL m n s)
    unfold execMacL
    exact macOperands_follows _ _ _ _ (fun _ _ s => setMac_follows s _) s
  | macW m n =>
    show Answer.All _ (execMacW m n s)
    unfold execMacW
    exact macOperands_follows _ _ _ _ (fun _ _ s => macWord_follows _ _ s) s
  | mulL m n =>
    show Answer.All _ (execMulL m n s)
    unfold execMulL
    exact done_follows _ (.of_eq rfl rfl)
  | mulsW m n =>
    show Answer.All _ (execMulsW m n s)
    unfold execMulsW
    exact done_follows _ (.of_eq rfl rfl)
  | muluW m n =>
    show Answer.All _ (execMuluW m n s)
    unfold execMuluW
    exact done_follows _ (.of_eq rfl rfl)
  | neg m n =>
    show Answer.All _ (execNeg m n s)
    unfold execNeg
    exact done_follows _ (.of_eq rfl rfl)
  | negc m n =>
    show Answer.All _ (execNegc m n s)
    unfold execNegc
    exact done_follows _ (.of_eq rfl rfl)
  | sub m n =>
    show Answer.All _ (execSub m n s)
    unfold execSub
    exact done_follows _ (.of_eq rfl rfl)
  | subc m n =>
    show Answer.All _ (execSubc m n s)
    unfold execSubc
    exact done_follows _ (.of_eq rfl rfl)
  | subv m n =>
    show Answer.All _ (execSubv m n s)
    unfold execSubv
    exact done_follows _ (.of_eq rfl rfl)
  | and m n =>
    show Answer.All _ (execAnd m n s)
    unfold execAnd
    exact done_follows _ (.of_eq rfl rfl)
  | andImm imm =>
    show Answer.All _ (execAndImm imm s)
    unfold execAndImm
    exact done_follows _ (.of_eq rfl rfl)
  | andB imm =>
    show Answer.All _ (execAndB imm s)
    unfold execAndB
    exact modifyByte_follows _ _ _ (fun _ _ => .of_eq rfl rfl) s
  | not m n =>
    show Answer.All _ (execNot m n s)
    unfold execNot
    exact done_follows _ (.of_eq rfl rfl)
  | or m n =>
    show Answer.All _ (execOr m n s)
    unfold execOr
    exact done_follows _ (.of_eq rfl rfl)
  | orImm imm =>
    show Answer.All _ (execOrImm imm s)
    unfold execOrImm
    exact done_follows _ (.of_eq rfl rfl)
  | orB imm =>
    show Answer.All _ (execOrB imm s)
    unfold execOrB
    exact modifyByte_follows _ _ _ (fun _ _ => .of_eq rfl rfl) s
  | tas n =>
    show Answer.All _ (execTas n s)
    unfold execTas
    exact modifyByte_follows _ _ _ (flags := fun v s => s.setT (v == 0))
      (fun _ _ => .of_eq rfl rfl) s
  | tst m n =>
    show Answer.All _ (execTst m n s)
    unfold execTst
    exact done_follows _ (.of_eq rfl rfl)
  | tstImm imm =>
    show Answer.All _ (execTstImm imm s)
    unfold execTstImm
    exact done_follows _ (.of_eq rfl rfl)
  | tstB imm =>
    show Answer.All _ (execTstB imm s)
    unfold execTstB
    exact finish_follows _ _ (Run.all_bind (dataRead_follows _ _ s) fun _ _ => .of_eq rfl rfl)
  | xor m n =>
    show Answer.All _ (execXor m n s)
    unfold execXor
    exact done_follows _ (.of_eq rfl rfl)
  | xorImm imm =>
    show Answer.All _ (execXorImm imm s)
    unfold execXorImm
    exact done_follows _ (.of_eq rfl rfl)
  | xorB imm =>
    show Answer.All _ (execXorB imm s)
    unfold execXorB
    exact modifyByte_follows _ _ _ (fun _ _ => .of_eq rfl rfl) s
  | rotl n =>
    show Answer.All _ (execRotl n s)
    unfold execRotl
    exact done_follows _ (.of_eq rfl rfl)
  | rotr n =>
    show Answer.All _ (execRotr n s)
    unfold execRotr
    exact done_follows _ (.of_eq rfl rfl)
  | rotcl n =>
    show Answer.All _ (execRotcl n s)
    unfold execRotcl
    exact done_follows _ (.of_eq rfl rfl)
  | rotcr n =>
    show Answer.All _ (execRotcr n s)
    unfold execRotcr
    exact done_follows _ (.of_eq rfl rfl)
  | shal n =>
    show Answer.All _ (execShal n s)
    unfold execShal
    exact done_follows _ (.of_eq rfl rfl)
  | shar n =>
    show Answer.All _ (execShar n s)
    unfold execShar
    exact done_follows _ (.of_eq rfl rfl)
  | shll n =>
    show Answer.All _ (execShll n s)
    unfold execShll
    exact done_follows _ (.of_eq rfl rfl)
  | shlr n =>
    show Answer.All _ (execShlr n s)
    unfold execShlr
    exact done_follows _ (.of_eq rfl rfl)
  | shll2 n =>
    show Answer.All _ (execShll2 n s)
    unfold execShll2
    exact done_follows _ (.of_eq rfl rfl)
  | shlr2 n =>
    show Answer.All _ (execShlr2 n s)
    unfold execShlr2
    exact done_follows _ (.of_eq rfl rfl)
  | shll8 n =>
    show Answer.All _ (execShll8 n s)
    unfold execShll8
    exact done_follows _ (.of_eq rfl rfl)
  | shlr8 n =>
    show Answer.All _ (execShlr8 n s)
    unfold execShlr8
    exact done_follows _ (.of_eq rfl rfl)
  | shll16 n =>
    show Answer.All _ (execShll16 n s)
    unfold execShll16
    exact done_follows _ (.of_eq rfl rfl)
  | shlr16 n =>
    show Answer.All _ (execShlr16 n s)
    unfold execShlr16
    exact done_follows _ (.of_eq rfl rfl)
  | bf d =>
    show Answer.All _ (execBf d s)
    unfold execBf
    exact branch_follows (takenBranch_follows _ _ (.refl s)) (done_follows _ (.refl s))
  | bfS d =>
    show Answer.All _ (execBfS d s)
    unfold execBfS
    exact branch_follows (delayedBranch_follows _ _ (.refl s)) (done_follows _ (.refl s))
  | bt d =>
    show Answer.All _ (execBt d s)
    unfold execBt
    exact branch_follows (takenBranch_follows _ _ (.refl s)) (done_follows _ (.refl s))
  | btS d =>
    show Answer.All _ (execBtS d s)
    unfold execBtS
    exact branch_follows (delayedBranch_follows _ _ (.refl s)) (done_follows _ (.refl s))
  | bra d =>
    show Answer.All _ (execBra d s)
    unfold execBra
    exact slotGuard_follows (delayedBranch_follows _ _ (.of_eq rfl rfl))
  | braf m =>
    show Answer.All _ (execBraf m s)
    unfold execBraf
    exact slotGuard_follows (delayedBranch_follows _ _ (.of_eq rfl rfl))
  | bsr d =>
    show Answer.All _ (execBsr d s)
    unfold execBsr
    exact slotGuard_follows (delayedBranch_follows _ _ (.of_eq rfl rfl))
  | bsrf m =>
    show Answer.All _ (execBsrf m s)
    unfold execBsrf
    exact slotGuard_follows (delayedBranch_follows _ _ (.of_eq rfl rfl))
  | jmp m =>
    show Answer.All _ (execJmp m s)
    unfold execJmp
    exact slotGuard_follows (delayedBranch_follows _ _ (.of_eq rfl rfl))
  | jsr m =>
    show Answer.All _ (execJsr m s)
    unfold execJsr
    exact slotGuard_follows (delayedBranch_follows _ _ (.of_eq rfl rfl))
  | rts =>
    show Answer.All _ (execRts s)
    unfold execRts
    exact slotGuard_follows (delayedBranch_follows _ _ (.of_eq rfl rfl))
  | clrt =>
    show Answer.All _ (execClrt s)
    unfold execClrt
    exact done_follows _ (.of_eq rfl rfl)
  | clrmac =>
    show Answer.All _ (execClrmac s)
    unfold execClrmac
    exact done_follows _ (setMac_follows s _)
  | ldcSr m =>
    show Answer.All _ (execLdcSr m s)
    unfold execLdcSr
    exact done_follows _ (.of_eq rfl rfl)
  | ldcGbr m =>
    show Answer.All _ (execLdcGbr m s)
    unfold execLdcGbr
    exact done_follows _ (.of_eq rfl rfl)
  | ldcVbr m =>
    show Answer.All _ (execLdcVbr m s)
    unfold execLdcVbr
    exact done_follows _ (.of_eq rfl rfl)
  | ldcLSr m =>
    show Answer.All _ (execLdcLSr m s)
    unfold execLdcLSr
    exact popControl_follows _ _ (put := State.setSr)
      (fun _ _ => .of_eq rfl rfl) s
  | ldcLGbr m =>
    show Answer.All _ (execLdcLGbr m s)
    unfold execLdcLGbr
    exact popControl_follows _ _ (put := State.setGbr)
      (fun _ _ => .of_eq rfl rfl) s
  | ldcLVbr m =>
    show Answer.All _ (execLdcLVbr m s)
    unfold execLdcLVbr
    exact popControl_follows _ _ (put := State.setVbr)
      (fun _ _ => .of_eq rfl rfl) s
  | ldsMach m =>
    show Answer.All _ (execLdsMach m s)
    unfold execLdsMach
    exact done_follows _ (setMach_follows s _)
  | ldsMacl m =>
    show Answer.All _ (execLdsMacl m s)
    unfold execLdsMacl
    exact done_follows _ (.of_eq rfl rfl)
  | ldsPr m =>
    show Answer.All _ (execLdsPr m s)
    unfold execLdsPr
    exact done_follows _ (.of_eq rfl rfl)
  | ldsLMach m =>
    show Answer.All _ (execLdsLMach m s)
    unfold execLdsLMach
    exact popControl_follows _ _ setMach_follows s
  | ldsLMacl m =>
    show Answer.All _ (execLdsLMacl m s)
    unfold execLdsLMacl
    exact popControl_follows _ _ (put := State.setMacl)
      (fun _ _ => .of_eq rfl rfl) s
  | ldsLPr m =>
    show Answer.All _ (execLdsLPr m s)
    unfold execLdsLPr
    exact popControl_follows _ _ (put := State.setPr)
      (fun _ _ => .of_eq rfl rfl) s
  | nop =>
    show Answer.All _ (execNop s)
    unfold execNop
    exact done_follows _ (.of_eq rfl rfl)
  | rte =>
    show Answer.All _ (execRte s)
    unfold execRte
    exact slotGuard_follows (returnFromException_follows _ s)
  | sett =>
    show Answer.All _ (execSett s)
    unfold execSett
    exact done_follows _ (.of_eq rfl rfl)
  | sleep => exact execSleep_follows s
  | stcSr n =>
    show Answer.All _ (execStcSr n s)
    unfold execStcSr
    exact done_follows _ (.of_eq rfl rfl)
  | stcGbr n =>
    show Answer.All _ (execStcGbr n s)
    unfold execStcGbr
    exact done_follows _ (.of_eq rfl rfl)
  | stcVbr n =>
    show Answer.All _ (execStcVbr n s)
    unfold execStcVbr
    exact done_follows _ (.of_eq rfl rfl)
  | stcLSr n =>
    show Answer.All _ (execStcLSr n s)
    unfold execStcLSr
    exact pushValue_follows _ _ _ _ s
  | stcLGbr n =>
    show Answer.All _ (execStcLGbr n s)
    unfold execStcLGbr
    exact pushValue_follows _ _ _ _ s
  | stcLVbr n =>
    show Answer.All _ (execStcLVbr n s)
    unfold execStcLVbr
    exact pushValue_follows _ _ _ _ s
  | stsMach n =>
    show Answer.All _ (execStsMach n s)
    unfold execStsMach
    exact done_follows _ (.of_eq rfl rfl)
  | stsMacl n =>
    show Answer.All _ (execStsMacl n s)
    unfold execStsMacl
    exact done_follows _ (.of_eq rfl rfl)
  | stsPr n =>
    show Answer.All _ (execStsPr n s)
    unfold execStsPr
    exact done_follows _ (.of_eq rfl rfl)
  | stsLMach n =>
    show Answer.All _ (execStsLMach n s)
    unfold execStsLMach
    exact pushValue_follows _ _ _ _ s
  | stsLMacl n =>
    show Answer.All _ (execStsLMacl n s)
    unfold execStsLMacl
    exact pushValue_follows _ _ _ _ s
  | stsLPr n =>
    show Answer.All _ (execStsLPr n s)
    unfold execStsLPr
    exact pushValue_follows _ _ _ _ s
  | trapa imm =>
    show Answer.All _ (execTrapa imm s)
    unfold execTrapa
    exact slotGuard_follows (finish_follows _ _ (enterException_follows _ _ s))

end Sys2Proof.Machine
end

