-- ==== Sys2Proof/Laws/Launch.lean ====
section
/-! SUPPORT. The hook map as a map from addresses, and what every launch begins and ends with. -/

namespace Sys2Proof.Machine

/-! ### The hook map -/

/-- No two hooks of a list stand at one address. -/
def HooksDistinct (hooks : List Hook) : Prop := hooks.Pairwise fun g h => g.address ≠ h.address

theorem removeHook_distinct {hooks : List Hook} (a : Word) (h : HooksDistinct hooks) :
    HooksDistinct (removeHook a hooks) := h.filter _

theorem addHook_distinct {hooks : List Hook} (g : Hook) (h : HooksDistinct hooks) :
    HooksDistinct (addHook g hooks) := by
  refine List.Pairwise.cons ?_ (h.filter _)
  intro k hk
  have := (List.mem_filter.1 hk).2
  exact fun he => (bne_iff_ne.1 this) he.symm

theorem hookAt_removeHook (a b : Word) (hooks : List Hook) :
    hookAt b (removeHook a hooks) = if b = a then none else hookAt b hooks := by
  unfold hookAt removeHook
  rw [List.find?_filter]
  by_cases h : b = a
  · subst h
    rw [if_pos rfl, List.find?_eq_none]
    intro g _
    simp
  · rw [if_neg h]
    congr 1
    funext g
    by_cases hg : g.address = b
    · simp [hg, h]
    · simp [hg]

theorem hookAt_addHook (g : Hook) (b : Word) (hooks : List Hook) :
    hookAt b (addHook g hooks) = if b = g.address then some g else hookAt b hooks := by
  show List.find? _ (g :: removeHook g.address hooks) = _
  by_cases h : b = g.address
  · rw [if_pos h, List.find?_cons_of_pos (by simp [h])]
  · have hg : ¬(g.address == b) = true := fun he => h (beq_iff_eq.1 he).symm
    rw [if_neg h, List.find?_cons_of_neg (p := fun g : Hook => g.address == b) hg]
    exact (hookAt_removeHook _ _ _).trans (if_neg h)

/-- The hooks of a launch: no two at one address, and the last one installed at an address is the one
there. -/
theorem addHooks (l : List Hook) :
    HooksDistinct (l.foldl (fun hooks h => addHook h hooks) []) ∧
      ∀ a, hookAt a (l.foldl (fun hooks h => addHook h hooks) []) =
        l.reverse.find? fun h => h.address == a := by
  have key : ∀ (l : List Hook) (hooks : List Hook), HooksDistinct hooks →
      HooksDistinct (l.foldl (fun hooks h => addHook h hooks) hooks) ∧
        ∀ a, hookAt a (l.foldl (fun hooks h => addHook h hooks) hooks) =
          (l.reverse.find? fun h => h.address == a).or (hookAt a hooks) := by
    intro l
    induction l with
    | nil => exact fun hooks h => ⟨h, fun _ => rfl⟩
    | cons g l ih =>
      intro hooks h
      obtain ⟨h1, h2⟩ := ih _ (addHook_distinct g h)
      refine ⟨h1, fun a => (h2 a).trans ?_⟩
      rw [List.reverse_cons, List.find?_append, Option.or_assoc, hookAt_addHook]
      congr 1
      by_cases hg : a = g.address
      · simp [hg]
      · simp [hg, Ne.symm hg]
  obtain ⟨h1, h2⟩ := key l [] List.Pairwise.nil
  refine ⟨h1, fun a => (h2 a).trans ?_⟩
  cases l.reverse.find? fun h => h.address == a <;> rfl

/-! ### The end of a launch -/

/-- A launch ends at most once. -/
theorem Launch.EndsAt.unique {l : Launch} {j k : Nat} {t u : State} (h : l.EndsAt j t)
    (h' : l.EndsAt k u) : j = k ∧ t = u := by
  rcases Nat.lt_trichotomy j k with hj | rfl | hj
  · exact absurd h.atEnd (by simp [h'.first j t hj h.reached])
  · have := h.reached.symm.trans h'.reached
    exact ⟨rfl, by injection this⟩
  · exact absurd h'.atEnd (by simp [h.first k u hj h'.reached])

end Sys2Proof.Machine
end

