-- ==== Sys2Proof/Laws/Outcomes.lean ====
section
/-! SUPPORT. One lemma for each shared operation that lists its outcomes: the completed one, the one
abandoned by a misaligned access, and the fault, each with the state it leaves; and, for a write, the
transfer that never ends. -/

namespace Sys2Proof.Machine

/-! ### Bus accesses -/

/-- What a bus read leaves: the platform with the draw counter moved on. -/
theorem drawBytes_platform (n : Nat) (p : Platform) :
    ∃ k, (Platform.drawBytes n p).2 = { p with draws := k } := by
  induction n generalizing p with
  | zero => exact ⟨_, rfl⟩
  | succ n ih => exact (ih p.draw.2).imp fun _ h => h

theorem onchipBytes_platform (n off : Nat) (p : Platform) :
    ∃ k, (Platform.onchipBytes n off p).2 = { p with draws := k } := by
  induction n generalizing p off with
  | zero => exact ⟨_, rfl⟩
  | succ n ih =>
    obtain ⟨k, hk⟩ := ih (off + 1) (p.onchipByte off).2
    refine ⟨k, Eq.trans (b := (Platform.onchipBytes n (off + 1) (p.onchipByte off).2).2) rfl ?_⟩
    rw [hk]
    unfold Platform.onchipByte
    split <;> rfl

/-- A bus read leaves the platform as it was, but for the draw counter. -/
theorem read_platform (z : Size) (a : Word) (p : Platform) :
    ∃ k, (p.read z a).2 = { p with draws := k } := by
  show ∃ k, (p.readBytes a z.bytes).2 = _
  unfold Platform.readBytes
  split
  · exact ⟨_, rfl⟩
  · exact drawBytes_platform _ _
  · exact onchipBytes_platform _ _ _
  · exact ⟨_, rfl⟩

@[simp] theorem read_params (z : Size) (a : Word) (p : Platform) :
    (p.read z a).2.params = p.params := by
  obtain ⟨k, h⟩ := read_platform z a p
  rw [h]

theorem misaligned_outcomes {α : Type} (s : State) (a : Word) (z : Size) :
    (s.misaligned a z : Run α) = .addressError s ∨ ∃ r, (s.misaligned a z : Run α) = .raise r s := by
  unfold State.misaligned
  split
  · exact .inr ⟨_, rfl⟩
  · exact .inl rfl

theorem dataRead_outcomes (z : Size) (a : Word) (s : State) :
    dataRead z a s = .ok (s.plat.read z a).1 (s.charge (s.plat.read z a).2 (s.plat.cost a)) ∨
    dataRead z a s = .addressError s ∨ ∃ r, dataRead z a s = .raise r s := by
  unfold dataRead
  split
  · exact .inl rfl
  · exact .inr (misaligned_outcomes s a z)

theorem dataWrite_outcomes (z : Size) (a v : Word) (s : State) :
    ∃ p, p.params = s.plat.params ∧
      (dataWrite z a v s = .ok () (s.charge p (s.plat.cost a)) ∨
       dataWrite z a v s = .addressError s ∨ (∃ r, dataWrite z a v s = .raise r (s.setPlat p)) ∨
       dataWrite z a v s = .hang) := by
  have hf := write_follows z a v s.plat
  unfold dataWrite
  split
  · split
    · next p hw => rw [hw] at hf; exact ⟨p, hf.params, .inl rfl⟩
    · next r p hw => rw [hw] at hf; exact ⟨p, hf.params, .inr (.inr (.inl ⟨_, rfl⟩))⟩
    · exact ⟨s.plat, rfl, .inr (.inr (.inr rfl))⟩
  · refine ⟨s.plat, rfl, .inr ?_⟩
    exact (misaligned_outcomes s a z).imp id .inl

theorem entryWrite_outcomes (a v : Word) (s : State) :
    ∃ p, p.params = s.plat.params ∧
      (entryWrite a v s = .ok () (s.charge p (s.plat.cost a)) ∨
        (∃ r, entryWrite a v s = .raise r (s.setPlat p)) ∨ entryWrite a v s = .hang) := by
  have hf := write_follows .long a v s.plat
  unfold entryWrite
  split
  · split
    · next p hw => rw [hw] at hf; exact ⟨p, hf.params, .inl rfl⟩
    · next r p hw => rw [hw] at hf; exact ⟨p, hf.params, .inr (.inl ⟨_, rfl⟩)⟩
    · exact ⟨s.plat, rfl, .inr (.inr rfl)⟩
  · exact ⟨s.plat, rfl, .inr (.inl ⟨_, rfl⟩)⟩

theorem entryRead_outcomes (a : Word) (s : State) :
    entryRead a s =
      .ok (s.plat.read .long a).1 (s.charge (s.plat.read .long a).2 (s.plat.cost a)) ∨
    ∃ r, entryRead a s = .raise r s := by
  unfold entryRead
  split
  · exact .inl rfl
  · exact .inr ⟨_, rfl⟩

/-! ### Loads and stores. `p` and `c` are the platform and the cost that the accesses leave. -/

theorem loadReg_outcomes (i : Instr) (z : Size) (a : Word) (n : Reg) (s : State) :
    ∃ p c v, p.params = s.plat.params ∧
      (loadReg i z a n s = .next (((s.charge p c).setReg n v).retire i false) ∨
       loadReg i z a n s = .next s.abandon ∨ ∃ r, loadReg i z a n s = s.stop r) := by
  refine ⟨_, s.plat.cost a, z.extend (s.plat.read z a).1, read_params z a s.plat, ?_⟩
  unfold loadReg
  rcases dataRead_outcomes z a s with h | h | ⟨r, h⟩ <;> rw [h]
  · exact .inl rfl
  · exact .inr (.inl rfl)
  · exact .inr (.inr ⟨r, rfl⟩)

theorem popReg_outcomes (i : Instr) (z : Size) (m n : Reg) (s : State) :
    ∃ p c v, p.params = s.plat.params ∧
      (popReg i z m n s =
        .next ((((s.charge p c).setReg m (postInc z (s.reg m))).setReg n v).retire i false) ∨
       popReg i z m n s = .next s.abandon ∨ ∃ r, popReg i z m n s = s.stop r) := by
  refine ⟨_, s.plat.cost (s.reg m), z.extend (s.plat.read z (s.reg m)).1,
    read_params z (s.reg m) s.plat, ?_⟩
  unfold popReg
  rcases dataRead_outcomes z (s.reg m) s with h | h | ⟨r, h⟩ <;> rw [h]
  · exact .inl rfl
  · exact .inr (.inl rfl)
  · exact .inr (.inr ⟨r, rfl⟩)

theorem popControl_outcomes (i : Instr) (m : Reg) (put : State → Word → State) (s : State) :
    ∃ p c v, p.params = s.plat.params ∧
      (popControl i m put s =
        .next ((put ((s.charge p c).setReg m (postInc .long (s.reg m))) v).retire i false) ∨
       popControl i m put s = .next s.abandon ∨ ∃ r, popControl i m put s = s.stop r) := by
  refine ⟨_, s.plat.cost (s.reg m), (s.plat.read .long (s.reg m)).1,
    read_params .long (s.reg m) s.plat, ?_⟩
  unfold popControl
  rcases dataRead_outcomes .long (s.reg m) s with h | h | ⟨r, h⟩ <;> rw [h]
  · exact .inl rfl
  · exact .inr (.inl rfl)
  · exact .inr (.inr ⟨r, rfl⟩)

theorem storeValue_outcomes (i : Instr) (z : Size) (a v : Word) (s : State) :
    ∃ p c, p.params = s.plat.params ∧
      (storeValue i z a v s = .next ((s.charge p c).retire i false) ∨
       storeValue i z a v s = .next s.abandon ∨
       (∃ r, storeValue i z a v s = (s.setPlat p).stop r) ∨
       storeValue i z a v s = .fault .endless) := by
  obtain ⟨p, hp, h⟩ := dataWrite_outcomes z a v s
  refine ⟨p, s.plat.cost a, hp, ?_⟩
  unfold storeValue
  rcases h with h | h | ⟨r, h⟩ | h <;> rw [h]
  · exact .inl rfl
  · exact .inr (.inl rfl)
  · exact .inr (.inr (.inl ⟨r, rfl⟩))
  · exact .inr (.inr (.inr rfl))

theorem pushValue_outcomes (i : Instr) (z : Size) (v : Word) (n : Reg) (s : State) :
    ∃ p c, p.params = s.plat.params ∧
      (pushValue i z v n s =
        .next (((s.charge p c).setReg n (eaPreDec z (s.reg n))).retire i false) ∨
       pushValue i z v n s = .next s.abandon ∨
       (∃ r, pushValue i z v n s = (s.setPlat p).stop r) ∨
       pushValue i z v n s = .fault .endless) := by
  obtain ⟨p, hp, h⟩ := dataWrite_outcomes z (eaPreDec z (s.reg n)) v s
  refine ⟨p, s.plat.cost (eaPreDec z (s.reg n)), hp, ?_⟩
  unfold pushValue
  dsimp only
  rcases h with h | h | ⟨r, h⟩ | h <;> rw [h]
  · exact .inl rfl
  · exact .inr (.inl rfl)
  · exact .inr (.inr (.inl ⟨r, rfl⟩))
  · exact .inr (.inr (.inr rfl))

/-- A read-modify-write of one byte is never misaligned. -/
theorem modifyByte_outcomes (i : Instr) (a : Word) (f : Word → Word)
    (flags : Word → State → State) (s : State) :
    ∃ p c v, p.params = s.plat.params ∧
      (modifyByte i a f flags s = .next ((flags v (s.charge p c)).retire i false) ∨
       (∃ r, modifyByte i a f flags s = (s.charge p c).stop r) ∨
       modifyByte i a f flags s = .fault .endless) := by
  unfold modifyByte
  rw [dataRead_aligned rfl]
  have hr := read_params .byte a s.plat
  generalize s.plat.read .byte a = x at *
  obtain ⟨v, q⟩ := x
  dsimp only [Run.bind_ok]
  have hf := write_follows .byte a (f v) q
  cases hw : q.write .byte a (f v) with
  | ok p =>
    rw [hw] at hf
    rw [dataWrite_ok rfl hw]
    refine ⟨p, s.plat.cost a + q.cost a, v, hf.params.trans hr, .inl ?_⟩
    simp [State.charge, Nat.add_assoc]
  | raise r p =>
    rw [hw] at hf
    rw [dataWrite_raise rfl hw]
    exact ⟨p, s.plat.cost a, v, hf.params.trans hr, .inr (.inl ⟨_, rfl⟩)⟩
  | hang =>
    have hh : dataWrite .byte a (f v) (s.charge q (s.plat.cost a)) = .hang := by
      simp [dataWrite, Size.aligned, hw]
    rw [hh]
    exact ⟨q, s.plat.cost a, v, hr, .inr (.inr rfl)⟩

theorem macOperands_outcomes (i : Instr) (z : Size) (m n : Reg)
    (use : Word → Word → State → State) (s : State) :
    ∃ p c v v' w w', p.params = s.plat.params ∧
      (macOperands i z m n use s =
        .next ((use v v' (((s.charge p c).setReg n w).setReg m w')).retire i false) ∨
       macOperands i z m n use s = .next (s.charge p c).abandon ∨
       ∃ r, macOperands i z m n use s = (s.charge p c).stop r) := by
  unfold macOperands
  dsimp only
  rcases dataRead_outcomes z (s.reg n) s with h | h | ⟨r, h⟩ <;> rw [h]
  · have hr := read_params z (s.reg n) s.plat
    generalize s.plat.read z (s.reg n) = x at *
    obtain ⟨v, q⟩ := x
    dsimp only [Run.bind_ok]
    generalize (if n = m then postInc z (s.reg n) else s.reg m) = b
    rcases dataRead_outcomes z b (s.charge q (s.plat.cost (s.reg n))) with h | h | ⟨r, h⟩ <;> rw [h]
    · refine ⟨(q.read z b).2, s.plat.cost (s.reg n) + q.cost b, v, (q.read z b).1,
        postInc z (s.reg n), postInc z b, (read_params z b q).trans hr, .inl ?_⟩
      simp only [Run.bind_ok, State.charge, Nat.add_assoc]
      rfl
    · exact ⟨q, _, 0, 0, 0, 0, hr, .inr (.inl rfl)⟩
    · exact ⟨q, _, 0, 0, 0, 0, hr, .inr (.inr ⟨r, rfl⟩)⟩
  · exact ⟨s.plat, 0, 0, 0, 0, 0, rfl, .inr (.inl rfl)⟩
  · exact ⟨s.plat, 0, 0, 0, 0, 0, rfl, .inr (.inr ⟨r, rfl⟩)⟩

/-! ### Exceptions -/

/-- An exception entry is taken or faults, or a transfer it starts never ends; a faulting one writes no
register. -/
theorem enterException_outcomes (v : BitVec 8) (m : Option Nat) (s : State) :
    ∃ p c target, p.params = s.plat.params ∧
      (enterException v m s =
        .ok () (((((s.charge p c).setReg 15 (s.reg 15 - 4 - 4)).setPc target).flush).raiseMask m) ∨
       (∃ r, enterException v m s = .raise r (s.charge p c)) ∨ enterException v m s = .hang) := by
  unfold enterException
  dsimp only
  obtain ⟨p₁, hp₁, h₁⟩ := entryWrite_outcomes (s.reg 15 - 4) s.srWord s
  rcases h₁ with h | ⟨r, h⟩ | h <;> rw [h]
  · dsimp only [Run.bind_ok]
    obtain ⟨p₂, hp₂, h₂⟩ := entryWrite_outcomes (s.reg 15 - 4 - 4)
      ((s.charge p₁ (s.plat.cost (s.reg 15 - 4))).pc - 2) (s.charge p₁ (s.plat.cost (s.reg 15 - 4)))
    rcases h₂ with h | ⟨r, h⟩ | h <;> rw [h]
    · dsimp only [Run.bind_ok]
      rcases entryRead_outcomes (s.vbr + v.setWidth 32 * 4)
          ((s.charge p₁ (s.plat.cost (s.reg 15 - 4))).charge p₂
            ((s.charge p₁ (s.plat.cost (s.reg 15 - 4))).plat.cost (s.reg 15 - 4 - 4))) with
        h | ⟨r, h⟩
      · simp only [State.charge_vbr]
        rw [h]
        refine ⟨(p₂.read .long (s.vbr + v.setWidth 32 * 4)).2,
          s.plat.cost (s.reg 15 - 4) + p₁.cost (s.reg 15 - 4 - 4) +
            p₂.cost (s.vbr + v.setWidth 32 * 4), (p₂.read .long (s.vbr + v.setWidth 32 * 4)).1,
          ?_, .inl ?_⟩
        · rw [read_params, hp₂]; exact hp₁
        · simp only [Run.bind_ok, State.charge, Nat.add_assoc]
      · simp only [State.charge_vbr]
        rw [h]
        refine ⟨p₂, s.plat.cost (s.reg 15 - 4) + p₁.cost (s.reg 15 - 4 - 4), 0, hp₂.trans hp₁,
          .inr (.inl ⟨r, ?_⟩)⟩
        simp only [Run.bind_raise, State.charge, Nat.add_assoc]
    · exact ⟨p₂, _, 0, hp₂.trans hp₁, .inr (.inl ⟨r, rfl⟩)⟩
    · exact ⟨p₂, 0, 0, hp₂.trans hp₁, .inr (.inr rfl)⟩
  · exact ⟨p₁, 0, 0, hp₁, .inr (.inl ⟨r, rfl⟩)⟩
  · exact ⟨p₁, 0, 0, hp₁, .inr (.inr rfl)⟩

theorem returnFromException_outcomes (i : Instr) (s : State) :
    ∃ p c target sr, p.params = s.plat.params ∧
      (returnFromException i s =
        .next (((((s.charge p c).setReg 15 (s.reg 15 + 8)).setSr sr).setPc target).retire i true) ∨
       returnFromException i s = .next (s.charge p c).abandon ∨
       ∃ r, returnFromException i s = (s.charge p c).stop r) := by
  unfold returnFromException
  dsimp only
  rcases dataRead_outcomes .long (s.reg 15) s with h | h | ⟨r, h⟩ <;> rw [h]
  · have hr := read_params .long (s.reg 15) s.plat
    generalize s.plat.read .long (s.reg 15) = x at *
    obtain ⟨v, q⟩ := x
    dsimp only [Run.bind_ok]
    rcases dataRead_outcomes .long (s.reg 15 + 4) (s.charge q (s.plat.cost (s.reg 15))) with
      h | h | ⟨r, h⟩ <;> rw [h]
    · refine ⟨(q.read .long (s.reg 15 + 4)).2, s.plat.cost (s.reg 15) + q.cost (s.reg 15 + 4), v,
        (q.read .long (s.reg 15 + 4)).1, (read_params _ _ q).trans hr, .inl ?_⟩
      simp only [Run.bind_ok, State.charge, Nat.add_assoc]
      rfl
    · exact ⟨q, _, 0, 0, hr, .inr (.inl rfl)⟩
    · exact ⟨q, _, 0, 0, hr, .inr (.inr ⟨r, rfl⟩)⟩
  · exact ⟨s.plat, 0, 0, 0, rfl, .inr (.inl rfl)⟩
  · exact ⟨s.plat, 0, 0, 0, rfl, .inr (.inr ⟨r, rfl⟩)⟩

end Sys2Proof.Machine
end

