-- ==== Sys2Proof/Laws/PerInstr.lean ====
section
/-! SUPPORT. Statements about every instruction as syntax, with one lemma for each constructor. -/

namespace Sys2Proof.Laws

/-- A word of nibbles under a mask, nibble by nibble. -/
theorem masked {a x y z a' x' y' z' a'' x'' y'' z'' : Reg}
    (h : a &&& a' = a'' ∧ x &&& x' = x'' ∧ y &&& y' = y'' ∧ z &&& z' = z'') :
    word a x y z &&& word a' x' y' z' = word a'' x'' y'' z'' := by
  rw [word_and, word_inj]
  exact h

/-- Under every mask of the opcode table, a nibble is kept whole or dropped. -/
theorem and_none (a : Reg) : a &&& 0x0 = 0x0 := by simp

namespace EncodesInItsRow

/-- An instruction encodes to a word that meets the mask and the match of its row of the opcode table
(30_encoding.md R127). -/
def Statement (i : Instr) : Prop := encodeWord i &&& i.maskWord = i.matchWord

theorem movImm (imm : BitVec 8) (n : Reg) : Statement (.movImm imm n) :=
  masked (a' := 0xF) (x' := 0x0) (y' := 0x0) (z' := 0x0) ⟨rfl, and_none _, and_none _, and_none _⟩

theorem movWPc (d : BitVec 8) (n : Reg) : Statement (.movWPc d n) :=
  masked (a' := 0xF) (x' := 0x0) (y' := 0x0) (z' := 0x0) ⟨rfl, and_none _, and_none _, and_none _⟩

theorem movLPc (d : BitVec 8) (n : Reg) : Statement (.movLPc d n) :=
  masked (a' := 0xF) (x' := 0x0) (y' := 0x0) (z' := 0x0) ⟨rfl, and_none _, and_none _, and_none _⟩

theorem mov (m : Reg) (n : Reg) : Statement (.mov m n) :=
  masked (a' := 0xF) (x' := 0x0) (y' := 0x0) (z' := 0xF) ⟨rfl, and_none _, and_none _, rfl⟩

theorem movBStore (m : Reg) (n : Reg) : Statement (.movBStore m n) :=
  masked (a' := 0xF) (x' := 0x0) (y' := 0x0) (z' := 0xF) ⟨rfl, and_none _, and_none _, rfl⟩

theorem movWStore (m : Reg) (n : Reg) : Statement (.movWStore m n) :=
  masked (a' := 0xF) (x' := 0x0) (y' := 0x0) (z' := 0xF) ⟨rfl, and_none _, and_none _, rfl⟩

theorem movLStore (m : Reg) (n : Reg) : Statement (.movLStore m n) :=
  masked (a' := 0xF) (x' := 0x0) (y' := 0x0) (z' := 0xF) ⟨rfl, and_none _, and_none _, rfl⟩

theorem movBLoad (m : Reg) (n : Reg) : Statement (.movBLoad m n) :=
  masked (a' := 0xF) (x' := 0x0) (y' := 0x0) (z' := 0xF) ⟨rfl, and_none _, and_none _, rfl⟩

theorem movWLoad (m : Reg) (n : Reg) : Statement (.movWLoad m n) :=
  masked (a' := 0xF) (x' := 0x0) (y' := 0x0) (z' := 0xF) ⟨rfl, and_none _, and_none _, rfl⟩

theorem movLLoad (m : Reg) (n : Reg) : Statement (.movLLoad m n) :=
  masked (a' := 0xF) (x' := 0x0) (y' := 0x0) (z' := 0xF) ⟨rfl, and_none _, and_none _, rfl⟩

theorem movBPreDec (m : Reg) (n : Reg) : Statement (.movBPreDec m n) :=
  masked (a' := 0xF) (x' := 0x0) (y' := 0x0) (z' := 0xF) ⟨rfl, and_none _, and_none _, rfl⟩

theorem movWPreDec (m : Reg) (n : Reg) : Statement (.movWPreDec m n) :=
  masked (a' := 0xF) (x' := 0x0) (y' := 0x0) (z' := 0xF) ⟨rfl, and_none _, and_none _, rfl⟩

theorem movLPreDec (m : Reg) (n : Reg) : Statement (.movLPreDec m n) :=
  masked (a' := 0xF) (x' := 0x0) (y' := 0x0) (z' := 0xF) ⟨rfl, and_none _, and_none _, rfl⟩

theorem movBPostInc (m : Reg) (n : Reg) : Statement (.movBPostInc m n) :=
  masked (a' := 0xF) (x' := 0x0) (y' := 0x0) (z' := 0xF) ⟨rfl, and_none _, and_none _, rfl⟩

theorem movWPostInc (m : Reg) (n : Reg) : Statement (.movWPostInc m n) :=
  masked (a' := 0xF) (x' := 0x0) (y' := 0x0) (z' := 0xF) ⟨rfl, and_none _, and_none _, rfl⟩

theorem movLPostInc (m : Reg) (n : Reg) : Statement (.movLPostInc m n) :=
  masked (a' := 0xF) (x' := 0x0) (y' := 0x0) (z' := 0xF) ⟨rfl, and_none _, and_none _, rfl⟩

theorem movBStoreDisp (d : BitVec 4) (n : Reg) : Statement (.movBStoreDisp d n) :=
  masked (a' := 0xF) (x' := 0xF) (y' := 0x0) (z' := 0x0) ⟨rfl, rfl, and_none _, and_none _⟩

theorem movWStoreDisp (d : BitVec 4) (n : Reg) : Statement (.movWStoreDisp d n) :=
  masked (a' := 0xF) (x' := 0xF) (y' := 0x0) (z' := 0x0) ⟨rfl, rfl, and_none _, and_none _⟩

theorem movLStoreDisp (m : Reg) (d : BitVec 4) (n : Reg) : Statement (.movLStoreDisp m d n) :=
  masked (a' := 0xF) (x' := 0x0) (y' := 0x0) (z' := 0x0) ⟨rfl, and_none _, and_none _, and_none _⟩

theorem movBLoadDisp (d : BitVec 4) (m : Reg) : Statement (.movBLoadDisp d m) :=
  masked (a' := 0xF) (x' := 0xF) (y' := 0x0) (z' := 0x0) ⟨rfl, rfl, and_none _, and_none _⟩

theorem movWLoadDisp (d : BitVec 4) (m : Reg) : Statement (.movWLoadDisp d m) :=
  masked (a' := 0xF) (x' := 0xF) (y' := 0x0) (z' := 0x0) ⟨rfl, rfl, and_none _, and_none _⟩

theorem movLLoadDisp (d : BitVec 4) (m : Reg) (n : Reg) : Statement (.movLLoadDisp d m n) :=
  masked (a' := 0xF) (x' := 0x0) (y' := 0x0) (z' := 0x0) ⟨rfl, and_none _, and_none _, and_none _⟩

theorem movBStoreIdx (m : Reg) (n : Reg) : Statement (.movBStoreIdx m n) :=
  masked (a' := 0xF) (x' := 0x0) (y' := 0x0) (z' := 0xF) ⟨rfl, and_none _, and_none _, rfl⟩

theorem movWStoreIdx (m : Reg) (n : Reg) : Statement (.movWStoreIdx m n) :=
  masked (a' := 0xF) (x' := 0x0) (y' := 0x0) (z' := 0xF) ⟨rfl, and_none _, and_none _, rfl⟩

theorem movLStoreIdx (m : Reg) (n : Reg) : Statement (.movLStoreIdx m n) :=
  masked (a' := 0xF) (x' := 0x0) (y' := 0x0) (z' := 0xF) ⟨rfl, and_none _, and_none _, rfl⟩

theorem movBLoadIdx (m : Reg) (n : Reg) : Statement (.movBLoadIdx m n) :=
  masked (a' := 0xF) (x' := 0x0) (y' := 0x0) (z' := 0xF) ⟨rfl, and_none _, and_none _, rfl⟩

theorem movWLoadIdx (m : Reg) (n : Reg) : Statement (.movWLoadIdx m n) :=
  masked (a' := 0xF) (x' := 0x0) (y' := 0x0) (z' := 0xF) ⟨rfl, and_none _, and_none _, rfl⟩

theorem movLLoadIdx (m : Reg) (n : Reg) : Statement (.movLLoadIdx m n) :=
  masked (a' := 0xF) (x' := 0x0) (y' := 0x0) (z' := 0xF) ⟨rfl, and_none _, and_none _, rfl⟩

theorem movBStoreGbr (d : BitVec 8) : Statement (.movBStoreGbr d) :=
  masked (a' := 0xF) (x' := 0xF) (y' := 0x0) (z' := 0x0) ⟨rfl, rfl, and_none _, and_none _⟩

theorem movWStoreGbr (d : BitVec 8) : Statement (.movWStoreGbr d) :=
  masked (a' := 0xF) (x' := 0xF) (y' := 0x0) (z' := 0x0) ⟨rfl, rfl, and_none _, and_none _⟩

theorem movLStoreGbr (d : BitVec 8) : Statement (.movLStoreGbr d) :=
  masked (a' := 0xF) (x' := 0xF) (y' := 0x0) (z' := 0x0) ⟨rfl, rfl, and_none _, and_none _⟩

theorem movBLoadGbr (d : BitVec 8) : Statement (.movBLoadGbr d) :=
  masked (a' := 0xF) (x' := 0xF) (y' := 0x0) (z' := 0x0) ⟨rfl, rfl, and_none _, and_none _⟩

theorem movWLoadGbr (d : BitVec 8) : Statement (.movWLoadGbr d) :=
  masked (a' := 0xF) (x' := 0xF) (y' := 0x0) (z' := 0x0) ⟨rfl, rfl, and_none _, and_none _⟩

theorem movLLoadGbr (d : BitVec 8) : Statement (.movLLoadGbr d) :=
  masked (a' := 0xF) (x' := 0xF) (y' := 0x0) (z' := 0x0) ⟨rfl, rfl, and_none _, and_none _⟩

theorem mova (d : BitVec 8) : Statement (.mova d) :=
  masked (a' := 0xF) (x' := 0xF) (y' := 0x0) (z' := 0x0) ⟨rfl, rfl, and_none _, and_none _⟩

theorem movt (n : Reg) : Statement (.movt n) :=
  masked (a' := 0xF) (x' := 0x0) (y' := 0xF) (z' := 0xF) ⟨rfl, and_none _, rfl, rfl⟩

theorem swapB (m : Reg) (n : Reg) : Statement (.swapB m n) :=
  masked (a' := 0xF) (x' := 0x0) (y' := 0x0) (z' := 0xF) ⟨rfl, and_none _, and_none _, rfl⟩

theorem swapW (m : Reg) (n : Reg) : Statement (.swapW m n) :=
  masked (a' := 0xF) (x' := 0x0) (y' := 0x0) (z' := 0xF) ⟨rfl, and_none _, and_none _, rfl⟩

theorem xtrct (m : Reg) (n : Reg) : Statement (.xtrct m n) :=
  masked (a' := 0xF) (x' := 0x0) (y' := 0x0) (z' := 0xF) ⟨rfl, and_none _, and_none _, rfl⟩

theorem add (m : Reg) (n : Reg) : Statement (.add m n) :=
  masked (a' := 0xF) (x' := 0x0) (y' := 0x0) (z' := 0xF) ⟨rfl, and_none _, and_none _, rfl⟩

theorem addImm (imm : BitVec 8) (n : Reg) : Statement (.addImm imm n) :=
  masked (a' := 0xF) (x' := 0x0) (y' := 0x0) (z' := 0x0) ⟨rfl, and_none _, and_none _, and_none _⟩

theorem addc (m : Reg) (n : Reg) : Statement (.addc m n) :=
  masked (a' := 0xF) (x' := 0x0) (y' := 0x0) (z' := 0xF) ⟨rfl, and_none _, and_none _, rfl⟩

theorem addv (m : Reg) (n : Reg) : Statement (.addv m n) :=
  masked (a' := 0xF) (x' := 0x0) (y' := 0x0) (z' := 0xF) ⟨rfl, and_none _, and_none _, rfl⟩

theorem cmpEqImm (imm : BitVec 8) : Statement (.cmpEqImm imm) :=
  masked (a' := 0xF) (x' := 0xF) (y' := 0x0) (z' := 0x0) ⟨rfl, rfl, and_none _, and_none _⟩

theorem cmpEq (m : Reg) (n : Reg) : Statement (.cmpEq m n) :=
  masked (a' := 0xF) (x' := 0x0) (y' := 0x0) (z' := 0xF) ⟨rfl, and_none _, and_none _, rfl⟩

theorem cmpHs (m : Reg) (n : Reg) : Statement (.cmpHs m n) :=
  masked (a' := 0xF) (x' := 0x0) (y' := 0x0) (z' := 0xF) ⟨rfl, and_none _, and_none _, rfl⟩

theorem cmpGe (m : Reg) (n : Reg) : Statement (.cmpGe m n) :=
  masked (a' := 0xF) (x' := 0x0) (y' := 0x0) (z' := 0xF) ⟨rfl, and_none _, and_none _, rfl⟩

theorem cmpHi (m : Reg) (n : Reg) : Statement (.cmpHi m n) :=
  masked (a' := 0xF) (x' := 0x0) (y' := 0x0) (z' := 0xF) ⟨rfl, and_none _, and_none _, rfl⟩

theorem cmpGt (m : Reg) (n : Reg) : Statement (.cmpGt m n) :=
  masked (a' := 0xF) (x' := 0x0) (y' := 0x0) (z' := 0xF) ⟨rfl, and_none _, and_none _, rfl⟩

theorem cmpPz (n : Reg) : Statement (.cmpPz n) :=
  masked (a' := 0xF) (x' := 0x0) (y' := 0xF) (z' := 0xF) ⟨rfl, and_none _, rfl, rfl⟩

theorem cmpPl (n : Reg) : Statement (.cmpPl n) :=
  masked (a' := 0xF) (x' := 0x0) (y' := 0xF) (z' := 0xF) ⟨rfl, and_none _, rfl, rfl⟩

theorem cmpStr (m : Reg) (n : Reg) : Statement (.cmpStr m n) :=
  masked (a' := 0xF) (x' := 0x0) (y' := 0x0) (z' := 0xF) ⟨rfl, and_none _, and_none _, rfl⟩

theorem div1 (m : Reg) (n : Reg) : Statement (.div1 m n) :=
  masked (a' := 0xF) (x' := 0x0) (y' := 0x0) (z' := 0xF) ⟨rfl, and_none _, and_none _, rfl⟩

theorem div0s (m : Reg) (n : Reg) : Statement (.div0s m n) :=
  masked (a' := 0xF) (x' := 0x0) (y' := 0x0) (z' := 0xF) ⟨rfl, and_none _, and_none _, rfl⟩

theorem div0u : Statement (.div0u) :=
  masked (a' := 0xF) (x' := 0xF) (y' := 0xF) (z' := 0xF) ⟨rfl, rfl, rfl, rfl⟩

theorem dmulsL (m : Reg) (n : Reg) : Statement (.dmulsL m n) :=
  masked (a' := 0xF) (x' := 0x0) (y' := 0x0) (z' := 0xF) ⟨rfl, and_none _, and_none _, rfl⟩

theorem dmuluL (m : Reg) (n : Reg) : Statement (.dmuluL m n) :=
  masked (a' := 0xF) (x' := 0x0) (y' := 0x0) (z' := 0xF) ⟨rfl, and_none _, and_none _, rfl⟩

theorem dt (n : Reg) : Statement (.dt n) :=
  masked (a' := 0xF) (x' := 0x0) (y' := 0xF) (z' := 0xF) ⟨rfl, and_none _, rfl, rfl⟩

theorem extsB (m : Reg) (n : Reg) : Statement (.extsB m n) :=
  masked (a' := 0xF) (x' := 0x0) (y' := 0x0) (z' := 0xF) ⟨rfl, and_none _, and_none _, rfl⟩

theorem extsW (m : Reg) (n : Reg) : Statement (.extsW m n) :=
  masked (a' := 0xF) (x' := 0x0) (y' := 0x0) (z' := 0xF) ⟨rfl, and_none _, and_none _, rfl⟩

theorem extuB (m : Reg) (n : Reg) : Statement (.extuB m n) :=
  masked (a' := 0xF) (x' := 0x0) (y' := 0x0) (z' := 0xF) ⟨rfl, and_none _, and_none _, rfl⟩

theorem extuW (m : Reg) (n : Reg) : Statement (.extuW m n) :=
  masked (a' := 0xF) (x' := 0x0) (y' := 0x0) (z' := 0xF) ⟨rfl, and_none _, and_none _, rfl⟩

theorem macL (m : Reg) (n : Reg) : Statement (.macL m n) :=
  masked (a' := 0xF) (x' := 0x0) (y' := 0x0) (z' := 0xF) ⟨rfl, and_none _, and_none _, rfl⟩

theorem macW (m : Reg) (n : Reg) : Statement (.macW m n) :=
  masked (a' := 0xF) (x' := 0x0) (y' := 0x0) (z' := 0xF) ⟨rfl, and_none _, and_none _, rfl⟩

theorem mulL (m : Reg) (n : Reg) : Statement (.mulL m n) :=
  masked (a' := 0xF) (x' := 0x0) (y' := 0x0) (z' := 0xF) ⟨rfl, and_none _, and_none _, rfl⟩

theorem mulsW (m : Reg) (n : Reg) : Statement (.mulsW m n) :=
  masked (a' := 0xF) (x' := 0x0) (y' := 0x0) (z' := 0xF) ⟨rfl, and_none _, and_none _, rfl⟩

theorem muluW (m : Reg) (n : Reg) : Statement (.muluW m n) :=
  masked (a' := 0xF) (x' := 0x0) (y' := 0x0) (z' := 0xF) ⟨rfl, and_none _, and_none _, rfl⟩

theorem neg (m : Reg) (n : Reg) : Statement (.neg m n) :=
  masked (a' := 0xF) (x' := 0x0) (y' := 0x0) (z' := 0xF) ⟨rfl, and_none _, and_none _, rfl⟩

theorem negc (m : Reg) (n : Reg) : Statement (.negc m n) :=
  masked (a' := 0xF) (x' := 0x0) (y' := 0x0) (z' := 0xF) ⟨rfl, and_none _, and_none _, rfl⟩

theorem sub (m : Reg) (n : Reg) : Statement (.sub m n) :=
  masked (a' := 0xF) (x' := 0x0) (y' := 0x0) (z' := 0xF) ⟨rfl, and_none _, and_none _, rfl⟩

theorem subc (m : Reg) (n : Reg) : Statement (.subc m n) :=
  masked (a' := 0xF) (x' := 0x0) (y' := 0x0) (z' := 0xF) ⟨rfl, and_none _, and_none _, rfl⟩

theorem subv (m : Reg) (n : Reg) : Statement (.subv m n) :=
  masked (a' := 0xF) (x' := 0x0) (y' := 0x0) (z' := 0xF) ⟨rfl, and_none _, and_none _, rfl⟩

theorem and (m : Reg) (n : Reg) : Statement (.and m n) :=
  masked (a' := 0xF) (x' := 0x0) (y' := 0x0) (z' := 0xF) ⟨rfl, and_none _, and_none _, rfl⟩

theorem andImm (imm : BitVec 8) : Statement (.andImm imm) :=
  masked (a' := 0xF) (x' := 0xF) (y' := 0x0) (z' := 0x0) ⟨rfl, rfl, and_none _, and_none _⟩

theorem andB (imm : BitVec 8) : Statement (.andB imm) :=
  masked (a' := 0xF) (x' := 0xF) (y' := 0x0) (z' := 0x0) ⟨rfl, rfl, and_none _, and_none _⟩

theorem not (m : Reg) (n : Reg) : Statement (.not m n) :=
  masked (a' := 0xF) (x' := 0x0) (y' := 0x0) (z' := 0xF) ⟨rfl, and_none _, and_none _, rfl⟩

theorem or (m : Reg) (n : Reg) : Statement (.or m n) :=
  masked (a' := 0xF) (x' := 0x0) (y' := 0x0) (z' := 0xF) ⟨rfl, and_none _, and_none _, rfl⟩

theorem orImm (imm : BitVec 8) : Statement (.orImm imm) :=
  masked (a' := 0xF) (x' := 0xF) (y' := 0x0) (z' := 0x0) ⟨rfl, rfl, and_none _, and_none _⟩

theorem orB (imm : BitVec 8) : Statement (.orB imm) :=
  masked (a' := 0xF) (x' := 0xF) (y' := 0x0) (z' := 0x0) ⟨rfl, rfl, and_none _, and_none _⟩

theorem tas (n : Reg) : Statement (.tas n) :=
  masked (a' := 0xF) (x' := 0x0) (y' := 0xF) (z' := 0xF) ⟨rfl, and_none _, rfl, rfl⟩

theorem tst (m : Reg) (n : Reg) : Statement (.tst m n) :=
  masked (a' := 0xF) (x' := 0x0) (y' := 0x0) (z' := 0xF) ⟨rfl, and_none _, and_none _, rfl⟩

theorem tstImm (imm : BitVec 8) : Statement (.tstImm imm) :=
  masked (a' := 0xF) (x' := 0xF) (y' := 0x0) (z' := 0x0) ⟨rfl, rfl, and_none _, and_none _⟩

theorem tstB (imm : BitVec 8) : Statement (.tstB imm) :=
  masked (a' := 0xF) (x' := 0xF) (y' := 0x0) (z' := 0x0) ⟨rfl, rfl, and_none _, and_none _⟩

theorem xor (m : Reg) (n : Reg) : Statement (.xor m n) :=
  masked (a' := 0xF) (x' := 0x0) (y' := 0x0) (z' := 0xF) ⟨rfl, and_none _, and_none _, rfl⟩

theorem xorImm (imm : BitVec 8) : Statement (.xorImm imm) :=
  masked (a' := 0xF) (x' := 0xF) (y' := 0x0) (z' := 0x0) ⟨rfl, rfl, and_none _, and_none _⟩

theorem xorB (imm : BitVec 8) : Statement (.xorB imm) :=
  masked (a' := 0xF) (x' := 0xF) (y' := 0x0) (z' := 0x0) ⟨rfl, rfl, and_none _, and_none _⟩

theorem rotl (n : Reg) : Statement (.rotl n) :=
  masked (a' := 0xF) (x' := 0x0) (y' := 0xF) (z' := 0xF) ⟨rfl, and_none _, rfl, rfl⟩

theorem rotr (n : Reg) : Statement (.rotr n) :=
  masked (a' := 0xF) (x' := 0x0) (y' := 0xF) (z' := 0xF) ⟨rfl, and_none _, rfl, rfl⟩

theorem rotcl (n : Reg) : Statement (.rotcl n) :=
  masked (a' := 0xF) (x' := 0x0) (y' := 0xF) (z' := 0xF) ⟨rfl, and_none _, rfl, rfl⟩

theorem rotcr (n : Reg) : Statement (.rotcr n) :=
  masked (a' := 0xF) (x' := 0x0) (y' := 0xF) (z' := 0xF) ⟨rfl, and_none _, rfl, rfl⟩

theorem shal (n : Reg) : Statement (.shal n) :=
  masked (a' := 0xF) (x' := 0x0) (y' := 0xF) (z' := 0xF) ⟨rfl, and_none _, rfl, rfl⟩

theorem shar (n : Reg) : Statement (.shar n) :=
  masked (a' := 0xF) (x' := 0x0) (y' := 0xF) (z' := 0xF) ⟨rfl, and_none _, rfl, rfl⟩

theorem shll (n : Reg) : Statement (.shll n) :=
  masked (a' := 0xF) (x' := 0x0) (y' := 0xF) (z' := 0xF) ⟨rfl, and_none _, rfl, rfl⟩

theorem shlr (n : Reg) : Statement (.shlr n) :=
  masked (a' := 0xF) (x' := 0x0) (y' := 0xF) (z' := 0xF) ⟨rfl, and_none _, rfl, rfl⟩

theorem shll2 (n : Reg) : Statement (.shll2 n) :=
  masked (a' := 0xF) (x' := 0x0) (y' := 0xF) (z' := 0xF) ⟨rfl, and_none _, rfl, rfl⟩

theorem shlr2 (n : Reg) : Statement (.shlr2 n) :=
  masked (a' := 0xF) (x' := 0x0) (y' := 0xF) (z' := 0xF) ⟨rfl, and_none _, rfl, rfl⟩

theorem shll8 (n : Reg) : Statement (.shll8 n) :=
  masked (a' := 0xF) (x' := 0x0) (y' := 0xF) (z' := 0xF) ⟨rfl, and_none _, rfl, rfl⟩

theorem shlr8 (n : Reg) : Statement (.shlr8 n) :=
  masked (a' := 0xF) (x' := 0x0) (y' := 0xF) (z' := 0xF) ⟨rfl, and_none _, rfl, rfl⟩

theorem shll16 (n : Reg) : Statement (.shll16 n) :=
  masked (a' := 0xF) (x' := 0x0) (y' := 0xF) (z' := 0xF) ⟨rfl, and_none _, rfl, rfl⟩

theorem shlr16 (n : Reg) : Statement (.shlr16 n) :=
  masked (a' := 0xF) (x' := 0x0) (y' := 0xF) (z' := 0xF) ⟨rfl, and_none _, rfl, rfl⟩

theorem bf (d : BitVec 8) : Statement (.bf d) :=
  masked (a' := 0xF) (x' := 0xF) (y' := 0x0) (z' := 0x0) ⟨rfl, rfl, and_none _, and_none _⟩

theorem bfS (d : BitVec 8) : Statement (.bfS d) :=
  masked (a' := 0xF) (x' := 0xF) (y' := 0x0) (z' := 0x0) ⟨rfl, rfl, and_none _, and_none _⟩

theorem bt (d : BitVec 8) : Statement (.bt d) :=
  masked (a' := 0xF) (x' := 0xF) (y' := 0x0) (z' := 0x0) ⟨rfl, rfl, and_none _, and_none _⟩

theorem btS (d : BitVec 8) : Statement (.btS d) :=
  masked (a' := 0xF) (x' := 0xF) (y' := 0x0) (z' := 0x0) ⟨rfl, rfl, and_none _, and_none _⟩

theorem bra (d : BitVec 12) : Statement (.bra d) :=
  masked (a' := 0xF) (x' := 0x0) (y' := 0x0) (z' := 0x0) ⟨rfl, and_none _, and_none _, and_none _⟩

theorem braf (m : Reg) : Statement (.braf m) :=
  masked (a' := 0xF) (x' := 0x0) (y' := 0xF) (z' := 0xF) ⟨rfl, and_none _, rfl, rfl⟩

theorem bsr (d : BitVec 12) : Statement (.bsr d) :=
  masked (a' := 0xF) (x' := 0x0) (y' := 0x0) (z' := 0x0) ⟨rfl, and_none _, and_none _, and_none _⟩

theorem bsrf (m : Reg) : Statement (.bsrf m) :=
  masked (a' := 0xF) (x' := 0x0) (y' := 0xF) (z' := 0xF) ⟨rfl, and_none _, rfl, rfl⟩

theorem jmp (m : Reg) : Statement (.jmp m) :=
  masked (a' := 0xF) (x' := 0x0) (y' := 0xF) (z' := 0xF) ⟨rfl, and_none _, rfl, rfl⟩

theorem jsr (m : Reg) : Statement (.jsr m) :=
  masked (a' := 0xF) (x' := 0x0) (y' := 0xF) (z' := 0xF) ⟨rfl, and_none _, rfl, rfl⟩

theorem rts : Statement (.rts) :=
  masked (a' := 0xF) (x' := 0xF) (y' := 0xF) (z' := 0xF) ⟨rfl, rfl, rfl, rfl⟩

theorem clrt : Statement (.clrt) :=
  masked (a' := 0xF) (x' := 0xF) (y' := 0xF) (z' := 0xF) ⟨rfl, rfl, rfl, rfl⟩

theorem clrmac : Statement (.clrmac) :=
  masked (a' := 0xF) (x' := 0xF) (y' := 0xF) (z' := 0xF) ⟨rfl, rfl, rfl, rfl⟩

theorem ldcSr (m : Reg) : Statement (.ldcSr m) :=
  masked (a' := 0xF) (x' := 0x0) (y' := 0xF) (z' := 0xF) ⟨rfl, and_none _, rfl, rfl⟩

theorem ldcGbr (m : Reg) : Statement (.ldcGbr m) :=
  masked (a' := 0xF) (x' := 0x0) (y' := 0xF) (z' := 0xF) ⟨rfl, and_none _, rfl, rfl⟩

theorem ldcVbr (m : Reg) : Statement (.ldcVbr m) :=
  masked (a' := 0xF) (x' := 0x0) (y' := 0xF) (z' := 0xF) ⟨rfl, and_none _, rfl, rfl⟩

theorem ldcLSr (m : Reg) : Statement (.ldcLSr m) :=
  masked (a' := 0xF) (x' := 0x0) (y' := 0xF) (z' := 0xF) ⟨rfl, and_none _, rfl, rfl⟩

theorem ldcLGbr (m : Reg) : Statement (.ldcLGbr m) :=
  masked (a' := 0xF) (x' := 0x0) (y' := 0xF) (z' := 0xF) ⟨rfl, and_none _, rfl, rfl⟩

theorem ldcLVbr (m : Reg) : Statement (.ldcLVbr m) :=
  masked (a' := 0xF) (x' := 0x0) (y' := 0xF) (z' := 0xF) ⟨rfl, and_none _, rfl, rfl⟩

theorem ldsMach (m : Reg) : Statement (.ldsMach m) :=
  masked (a' := 0xF) (x' := 0x0) (y' := 0xF) (z' := 0xF) ⟨rfl, and_none _, rfl, rfl⟩

theorem ldsMacl (m : Reg) : Statement (.ldsMacl m) :=
  masked (a' := 0xF) (x' := 0x0) (y' := 0xF) (z' := 0xF) ⟨rfl, and_none _, rfl, rfl⟩

theorem ldsPr (m : Reg) : Statement (.ldsPr m) :=
  masked (a' := 0xF) (x' := 0x0) (y' := 0xF) (z' := 0xF) ⟨rfl, and_none _, rfl, rfl⟩

theorem ldsLMach (m : Reg) : Statement (.ldsLMach m) :=
  masked (a' := 0xF) (x' := 0x0) (y' := 0xF) (z' := 0xF) ⟨rfl, and_none _, rfl, rfl⟩

theorem ldsLMacl (m : Reg) : Statement (.ldsLMacl m) :=
  masked (a' := 0xF) (x' := 0x0) (y' := 0xF) (z' := 0xF) ⟨rfl, and_none _, rfl, rfl⟩

theorem ldsLPr (m : Reg) : Statement (.ldsLPr m) :=
  masked (a' := 0xF) (x' := 0x0) (y' := 0xF) (z' := 0xF) ⟨rfl, and_none _, rfl, rfl⟩

theorem nop : Statement (.nop) :=
  masked (a' := 0xF) (x' := 0xF) (y' := 0xF) (z' := 0xF) ⟨rfl, rfl, rfl, rfl⟩

theorem rte : Statement (.rte) :=
  masked (a' := 0xF) (x' := 0xF) (y' := 0xF) (z' := 0xF) ⟨rfl, rfl, rfl, rfl⟩

theorem sett : Statement (.sett) :=
  masked (a' := 0xF) (x' := 0xF) (y' := 0xF) (z' := 0xF) ⟨rfl, rfl, rfl, rfl⟩

theorem sleep : Statement (.sleep) :=
  masked (a' := 0xF) (x' := 0xF) (y' := 0xF) (z' := 0xF) ⟨rfl, rfl, rfl, rfl⟩

theorem stcSr (n : Reg) : Statement (.stcSr n) :=
  masked (a' := 0xF) (x' := 0x0) (y' := 0xF) (z' := 0xF) ⟨rfl, and_none _, rfl, rfl⟩

theorem stcGbr (n : Reg) : Statement (.stcGbr n) :=
  masked (a' := 0xF) (x' := 0x0) (y' := 0xF) (z' := 0xF) ⟨rfl, and_none _, rfl, rfl⟩

theorem stcVbr (n : Reg) : Statement (.stcVbr n) :=
  masked (a' := 0xF) (x' := 0x0) (y' := 0xF) (z' := 0xF) ⟨rfl, and_none _, rfl, rfl⟩

theorem stcLSr (n : Reg) : Statement (.stcLSr n) :=
  masked (a' := 0xF) (x' := 0x0) (y' := 0xF) (z' := 0xF) ⟨rfl, and_none _, rfl, rfl⟩

theorem stcLGbr (n : Reg) : Statement (.stcLGbr n) :=
  masked (a' := 0xF) (x' := 0x0) (y' := 0xF) (z' := 0xF) ⟨rfl, and_none _, rfl, rfl⟩

theorem stcLVbr (n : Reg) : Statement (.stcLVbr n) :=
  masked (a' := 0xF) (x' := 0x0) (y' := 0xF) (z' := 0xF) ⟨rfl, and_none _, rfl, rfl⟩

theorem stsMach (n : Reg) : Statement (.stsMach n) :=
  masked (a' := 0xF) (x' := 0x0) (y' := 0xF) (z' := 0xF) ⟨rfl, and_none _, rfl, rfl⟩

theorem stsMacl (n : Reg) : Statement (.stsMacl n) :=
  masked (a' := 0xF) (x' := 0x0) (y' := 0xF) (z' := 0xF) ⟨rfl, and_none _, rfl, rfl⟩

theorem stsPr (n : Reg) : Statement (.stsPr n) :=
  masked (a' := 0xF) (x' := 0x0) (y' := 0xF) (z' := 0xF) ⟨rfl, and_none _, rfl, rfl⟩

theorem stsLMach (n : Reg) : Statement (.stsLMach n) :=
  masked (a' := 0xF) (x' := 0x0) (y' := 0xF) (z' := 0xF) ⟨rfl, and_none _, rfl, rfl⟩

theorem stsLMacl (n : Reg) : Statement (.stsLMacl n) :=
  masked (a' := 0xF) (x' := 0x0) (y' := 0xF) (z' := 0xF) ⟨rfl, and_none _, rfl, rfl⟩

theorem stsLPr (n : Reg) : Statement (.stsLPr n) :=
  masked (a' := 0xF) (x' := 0x0) (y' := 0xF) (z' := 0xF) ⟨rfl, and_none _, rfl, rfl⟩

theorem trapa (imm : BitVec 8) : Statement (.trapa imm) :=
  masked (a' := 0xF) (x' := 0xF) (y' := 0x0) (z' := 0x0) ⟨rfl, rfl, and_none _, and_none _⟩

end EncodesInItsRow

end Sys2Proof.Laws
end

