-- ==== Sys2Proof/Tests/Slice0.lean ====
section
/-! SUPPORT. Tests with results taken from the specification (its encodings, and the vectors of
95_test_vectors.md, named V, E or S as there), and for every obligation with hypotheses a state
and operands that meet them all. -/

namespace Sys2Proof.Tests

open Sys2Proof.Machine Sys2Proof.Claims

/-! ### Well-formedness: the nine forms of R129 are refused without `SH2_EXTENSIONS` -/

theorem test_sh2_only_forms_refused :
    (Instr.bfS 0).wellFormed false = false ∧ (Instr.btS 0).wellFormed false = false ∧
    (Instr.braf 0).wellFormed false = false ∧ (Instr.bsrf 0).wellFormed false = false ∧
    (Instr.dmulsL 0 0).wellFormed false = false ∧ (Instr.dmuluL 0 0).wellFormed false = false ∧
    (Instr.dt 0).wellFormed false = false ∧ (Instr.macL 0 0).wellFormed false = false ∧
    (Instr.mulL 0 0).wellFormed false = false := by decide

theorem test_sh2_only_forms_accepted :
    (Instr.dt 1).wellFormed true = true ∧ (Instr.nop).wellFormed false = true ∧
    decodeFor false 0x4110 = none ∧ decodeFor true 0x4110 = some (.dt 1) := by decide

/-! ### Decoding: for every form, a word written from the pattern its rule gives, with n = 5,
m = 11, and displacements and immediates whose bits are not symmetric -/

theorem test_decode_data_transfer_1 :
    decodeWord 0b1110_0101_1001_0111 = some (.movImm 151 5) ∧
    decodeWord 0b1001_0101_1001_0111 = some (.movWPc 151 5) ∧
    decodeWord 0b1101_0101_1001_0111 = some (.movLPc 151 5) ∧
    decodeWord 0b0110_0101_1011_0011 = some (.mov 11 5) ∧
    decodeWord 0b0010_0101_1011_0000 = some (.movBStore 11 5) ∧
    decodeWord 0b0010_0101_1011_0001 = some (.movWStore 11 5) ∧
    decodeWord 0b0010_0101_1011_0010 = some (.movLStore 11 5) ∧
    decodeWord 0b0110_0101_1011_0000 = some (.movBLoad 11 5) ∧
    decodeWord 0b0110_0101_1011_0001 = some (.movWLoad 11 5) ∧
    decodeWord 0b0110_0101_1011_0010 = some (.movLLoad 11 5) ∧
    decodeWord 0b0010_0101_1011_0100 = some (.movBPreDec 11 5) ∧
    decodeWord 0b0010_0101_1011_0101 = some (.movWPreDec 11 5) ∧
    decodeWord 0b0010_0101_1011_0110 = some (.movLPreDec 11 5) ∧
    decodeWord 0b0110_0101_1011_0100 = some (.movBPostInc 11 5) := by decide

theorem test_decode_data_transfer_2 :
    decodeWord 0b0110_0101_1011_0101 = some (.movWPostInc 11 5) ∧
    decodeWord 0b0110_0101_1011_0110 = some (.movLPostInc 11 5) ∧
    decodeWord 0b1000_0000_0101_1101 = some (.movBStoreDisp 13 5) ∧
    decodeWord 0b1000_0001_0101_1101 = some (.movWStoreDisp 13 5) ∧
    decodeWord 0b0001_0101_1011_1101 = some (.movLStoreDisp 11 13 5) ∧
    decodeWord 0b1000_0100_1011_1101 = some (.movBLoadDisp 13 11) ∧
    decodeWord 0b1000_0101_1011_1101 = some (.movWLoadDisp 13 11) ∧
    decodeWord 0b0101_0101_1011_1101 = some (.movLLoadDisp 13 11 5) ∧
    decodeWord 0b0000_0101_1011_0100 = some (.movBStoreIdx 11 5) ∧
    decodeWord 0b0000_0101_1011_0101 = some (.movWStoreIdx 11 5) ∧
    decodeWord 0b0000_0101_1011_0110 = some (.movLStoreIdx 11 5) ∧
    decodeWord 0b0000_0101_1011_1100 = some (.movBLoadIdx 11 5) ∧
    decodeWord 0b0000_0101_1011_1101 = some (.movWLoadIdx 11 5) ∧
    decodeWord 0b0000_0101_1011_1110 = some (.movLLoadIdx 11 5) := by decide

theorem test_decode_data_transfer_3 :
    decodeWord 0b1100_0000_1001_0111 = some (.movBStoreGbr 151) ∧
    decodeWord 0b1100_0001_1001_0111 = some (.movWStoreGbr 151) ∧
    decodeWord 0b1100_0010_1001_0111 = some (.movLStoreGbr 151) ∧
    decodeWord 0b1100_0100_1001_0111 = some (.movBLoadGbr 151) ∧
    decodeWord 0b1100_0101_1001_0111 = some (.movWLoadGbr 151) ∧
    decodeWord 0b1100_0110_1001_0111 = some (.movLLoadGbr 151) ∧
    decodeWord 0b1100_0111_1001_0111 = some (.mova 151) ∧
    decodeWord 0b0000_0101_0010_1001 = some (.movt 5) ∧
    decodeWord 0b0110_0101_1011_1000 = some (.swapB 11 5) ∧
    decodeWord 0b0110_0101_1011_1001 = some (.swapW 11 5) ∧
    decodeWord 0b0010_0101_1011_1101 = some (.xtrct 11 5) := by decide

theorem test_decode_arithmetic_1 :
    decodeWord 0b0011_0101_1011_1100 = some (.add 11 5) ∧
    decodeWord 0b0111_0101_1001_0111 = some (.addImm 151 5) ∧
    decodeWord 0b0011_0101_1011_1110 = some (.addc 11 5) ∧
    decodeWord 0b0011_0101_1011_1111 = some (.addv 11 5) ∧
    decodeWord 0b1000_1000_1001_0111 = some (.cmpEqImm 151) ∧
    decodeWord 0b0011_0101_1011_0000 = some (.cmpEq 11 5) ∧
    decodeWord 0b0011_0101_1011_0010 = some (.cmpHs 11 5) ∧
    decodeWord 0b0011_0101_1011_0011 = some (.cmpGe 11 5) ∧
    decodeWord 0b0011_0101_1011_0110 = some (.cmpHi 11 5) ∧
    decodeWord 0b0011_0101_1011_0111 = some (.cmpGt 11 5) ∧
    decodeWord 0b0100_0101_0001_0001 = some (.cmpPz 5) ∧
    decodeWord 0b0100_0101_0001_0101 = some (.cmpPl 5) ∧
    decodeWord 0b0010_0101_1011_1100 = some (.cmpStr 11 5) ∧
    decodeWord 0b0011_0101_1011_0100 = some (.div1 11 5) := by decide

theorem test_decode_arithmetic_2 :
    decodeWord 0b0010_0101_1011_0111 = some (.div0s 11 5) ∧
    decodeWord 0b0000_0000_0001_1001 = some .div0u ∧
    decodeWord 0b0011_0101_1011_1101 = some (.dmulsL 11 5) ∧
    decodeWord 0b0011_0101_1011_0101 = some (.dmuluL 11 5) ∧
    decodeWord 0b0100_0101_0001_0000 = some (.dt 5) ∧
    decodeWord 0b0110_0101_1011_1110 = some (.extsB 11 5) ∧
    decodeWord 0b0110_0101_1011_1111 = some (.extsW 11 5) ∧
    decodeWord 0b0110_0101_1011_1100 = some (.extuB 11 5) ∧
    decodeWord 0b0110_0101_1011_1101 = some (.extuW 11 5) ∧
    decodeWord 0b0000_0101_1011_1111 = some (.macL 11 5) ∧
    decodeWord 0b0100_0101_1011_1111 = some (.macW 11 5) ∧
    decodeWord 0b0000_0101_1011_0111 = some (.mulL 11 5) ∧
    decodeWord 0b0010_0101_1011_1111 = some (.mulsW 11 5) ∧
    decodeWord 0b0010_0101_1011_1110 = some (.muluW 11 5) := by decide

theorem test_decode_arithmetic_3 :
    decodeWord 0b0110_0101_1011_1011 = some (.neg 11 5) ∧
    decodeWord 0b0110_0101_1011_1010 = some (.negc 11 5) ∧
    decodeWord 0b0011_0101_1011_1000 = some (.sub 11 5) ∧
    decodeWord 0b0011_0101_1011_1010 = some (.subc 11 5) ∧
    decodeWord 0b0011_0101_1011_1011 = some (.subv 11 5) := by decide

theorem test_decode_logic_1 :
    decodeWord 0b0010_0101_1011_1001 = some (.and 11 5) ∧
    decodeWord 0b1100_1001_1001_0111 = some (.andImm 151) ∧
    decodeWord 0b1100_1101_1001_0111 = some (.andB 151) ∧
    decodeWord 0b0110_0101_1011_0111 = some (.not 11 5) ∧
    decodeWord 0b0010_0101_1011_1011 = some (.or 11 5) ∧
    decodeWord 0b1100_1011_1001_0111 = some (.orImm 151) ∧
    decodeWord 0b1100_1111_1001_0111 = some (.orB 151) ∧
    decodeWord 0b0100_0101_0001_1011 = some (.tas 5) ∧
    decodeWord 0b0010_0101_1011_1000 = some (.tst 11 5) ∧
    decodeWord 0b1100_1000_1001_0111 = some (.tstImm 151) ∧
    decodeWord 0b1100_1100_1001_0111 = some (.tstB 151) ∧
    decodeWord 0b0010_0101_1011_1010 = some (.xor 11 5) ∧
    decodeWord 0b1100_1010_1001_0111 = some (.xorImm 151) ∧
    decodeWord 0b1100_1110_1001_0111 = some (.xorB 151) := by decide

theorem test_decode_shift_1 :
    decodeWord 0b0100_0101_0000_0100 = some (.rotl 5) ∧
    decodeWord 0b0100_0101_0000_0101 = some (.rotr 5) ∧
    decodeWord 0b0100_0101_0010_0100 = some (.rotcl 5) ∧
    decodeWord 0b0100_0101_0010_0101 = some (.rotcr 5) ∧
    decodeWord 0b0100_0101_0010_0000 = some (.shal 5) ∧
    decodeWord 0b0100_0101_0010_0001 = some (.shar 5) ∧
    decodeWord 0b0100_0101_0000_0000 = some (.shll 5) ∧
    decodeWord 0b0100_0101_0000_0001 = some (.shlr 5) ∧
    decodeWord 0b0100_0101_0000_1000 = some (.shll2 5) ∧
    decodeWord 0b0100_0101_0000_1001 = some (.shlr2 5) ∧
    decodeWord 0b0100_0101_0001_1000 = some (.shll8 5) ∧
    decodeWord 0b0100_0101_0001_1001 = some (.shlr8 5) ∧
    decodeWord 0b0100_0101_0010_1000 = some (.shll16 5) ∧
    decodeWord 0b0100_0101_0010_1001 = some (.shlr16 5) := by decide

theorem test_decode_branch_1 :
    decodeWord 0b1000_1011_1001_0111 = some (.bf 151) ∧
    decodeWord 0b1000_1111_1001_0111 = some (.bfS 151) ∧
    decodeWord 0b1000_1001_1001_0111 = some (.bt 151) ∧
    decodeWord 0b1000_1101_1001_0111 = some (.btS 151) ∧
    decodeWord 0b1010_1001_0111_0011 = some (.bra 2419) ∧
    decodeWord 0b0000_1011_0010_0011 = some (.braf 11) ∧
    decodeWord 0b1011_1001_0111_0011 = some (.bsr 2419) ∧
    decodeWord 0b0000_1011_0000_0011 = some (.bsrf 11) ∧
    decodeWord 0b0100_1011_0010_1011 = some (.jmp 11) ∧
    decodeWord 0b0100_1011_0000_1011 = some (.jsr 11) ∧
    decodeWord 0b0000_0000_0000_1011 = some .rts := by decide

theorem test_decode_system_1 :
    decodeWord 0b0000_0000_0000_1000 = some .clrt ∧
    decodeWord 0b0000_0000_0010_1000 = some .clrmac ∧
    decodeWord 0b0100_1011_0000_1110 = some (.ldcSr 11) ∧
    decodeWord 0b0100_1011_0001_1110 = some (.ldcGbr 11) ∧
    decodeWord 0b0100_1011_0010_1110 = some (.ldcVbr 11) ∧
    decodeWord 0b0100_1011_0000_0111 = some (.ldcLSr 11) ∧
    decodeWord 0b0100_1011_0001_0111 = some (.ldcLGbr 11) ∧
    decodeWord 0b0100_1011_0010_0111 = some (.ldcLVbr 11) ∧
    decodeWord 0b0100_1011_0000_1010 = some (.ldsMach 11) ∧
    decodeWord 0b0100_1011_0001_1010 = some (.ldsMacl 11) ∧
    decodeWord 0b0100_1011_0010_1010 = some (.ldsPr 11) ∧
    decodeWord 0b0100_1011_0000_0110 = some (.ldsLMach 11) ∧
    decodeWord 0b0100_1011_0001_0110 = some (.ldsLMacl 11) ∧
    decodeWord 0b0100_1011_0010_0110 = some (.ldsLPr 11) := by decide

theorem test_decode_system_2 :
    decodeWord 0b0000_0000_0000_1001 = some .nop ∧
    decodeWord 0b0000_0000_0010_1011 = some .rte ∧
    decodeWord 0b0000_0000_0001_1000 = some .sett ∧
    decodeWord 0b0000_0000_0001_1011 = some .sleep ∧
    decodeWord 0b0000_0101_0000_0010 = some (.stcSr 5) ∧
    decodeWord 0b0000_0101_0001_0010 = some (.stcGbr 5) ∧
    decodeWord 0b0000_0101_0010_0010 = some (.stcVbr 5) ∧
    decodeWord 0b0100_0101_0000_0011 = some (.stcLSr 5) ∧
    decodeWord 0b0100_0101_0001_0011 = some (.stcLGbr 5) ∧
    decodeWord 0b0100_0101_0010_0011 = some (.stcLVbr 5) ∧
    decodeWord 0b0000_0101_0000_1010 = some (.stsMach 5) ∧
    decodeWord 0b0000_0101_0001_1010 = some (.stsMacl 5) ∧
    decodeWord 0b0000_0101_0010_1010 = some (.stsPr 5) ∧
    decodeWord 0b0100_0101_0000_0010 = some (.stsLMach 5) := by decide

theorem test_decode_system_3 :
    decodeWord 0b0100_0101_0001_0010 = some (.stsLMacl 5) ∧
    decodeWord 0b0100_0101_0010_0010 = some (.stsLPr 5) ∧
    decodeWord 0b1100_0011_1001_0111 = some (.trapa 151) := by decide

/-- Unassigned words (95_test_vectors.md E1). -/
theorem test_unassigned_words_refused :
    decodeWord 0x0000 = none ∧ decodeWord 0x8A00 = none ∧ decodeWord 0xFFFF = none ∧
    decodeTableWord 16 0x8A00 = none := by decide

/-! ### One instruction on a small state (95_test_vectors.md part 3) -/

/-- The state of 95_test_vectors.md 0.2: an instruction at 0x01000100, every register 0, I = 15. -/
def start : State :=
  { State.reset with
    regs := Vector.replicate 16 0
    pc := 0x01000104
    pipe := { instruction := 0x0009, src := 0x01000102, valid := true }
    curAddr := 0x01000100 }

/-- The state with `n` bytes of memory written at `a`. -/
def put (a n : Nat) (v : Word) (s : State) : State :=
  { s with plat := { s.plat with
      mem := Memory.writeBytes s.plat.pageTable s.plat.mem a (splitBytes n v) } }

/-- The start state with registers set. -/
def regs (l : List (Reg × Word)) : State := l.foldl (fun s x => s.setReg x.1 x.2) start

/-- Executing `w` answers a next state that passes the check. -/
def runs (w : Half) (s : State) (check : State → Bool) : Bool :=
  match executeWord w { s with curWord := w } with
  | .next t => check t
  | _ => false

/-- Executing `w` ends in this fault reason and changes no register. -/
def faults (w : Half) (s : State) (reason : FaultReason) : Bool :=
  match executeWord w { s with curWord := w } with
  | .fault (.raised r t) => decide (r.reason = reason) && decide (t.regs = s.regs)
  | _ => false

/-- The `n` bytes of memory at `a`. -/
def mem (t : State) (a n : Nat) : Word := joinBytes (t.plat.mem.readBytes t.plat.pageTable a n)

theorem test_movImm_V40_1 :
    runs 0xE380
      start
      (fun t => t.reg 3 == 0xFFFFFF80) = true := by decide

theorem test_movWPc_V40_3 :
    runs 0x9102
      (put 0x01000108 2 0x8001 <|
      start)
      (fun t => t.reg 1 == 0xFFFF8001) = true := by decide

theorem test_movLPc_V40_4 :
    runs 0xD101
      (put 0x01000108 4 0x12345678 <|
      { start with pc := 0x01000106, curAddr := 0x01000102 })
      (fun t => t.reg 1 == 0x12345678) = true := by decide

theorem test_movWStore_V40_9 :
    faults 0x2121
      (regs [(1, 0x01000201), (2, 0x1234ABCD)])
      (.misaligned 0x01000201 2) = true := by decide

theorem test_movLStore_V40_10 :
    faults 0x2122
      (regs [(1, 0x00000200), (2, 1)])
      (.romWrite 0x00000200) = true := by decide

theorem test_movLPreDec_V40_15 :
    runs 0x2FF6
      (regs [(15, 0x01000400)])
      (fun t => t.reg 15 == 0x010003FC && mem t 0x010003FC 4 == 0x01000400) = true := by decide

theorem test_movLPostInc_V40_17 :
    runs 0x6226
      (put 0x01000200 4 0x11223344 <|
      regs [(2, 0x01000200)])
      (fun t => t.reg 2 == 0x11223344) = true := by decide

theorem test_movWPostInc_V40_18 :
    runs 0x6325
      (put 0x01000200 2 0xFFFE <|
      regs [(2, 0x01000200)])
      (fun t => t.reg 2 == 0x01000202 && t.reg 3 == 0xFFFFFFFE) = true := by decide

theorem test_movBStoreDisp_V40_19 :
    runs 0x804F
      (regs [(0, 0x000000AB), (4, 0x01000200)])
      (fun t => mem t 0x0100020F 1 == 0xAB) = true := by decide

theorem test_movWLoadDisp_V40_20 :
    runs 0x8543
      (put 0x01000206 2 0x8000 <|
      regs [(4, 0x01000200)])
      (fun t => t.reg 0 == 0xFFFF8000) = true := by decide

theorem test_movLStoreDisp_V40_21 :
    runs 0x145F
      (regs [(4, 0x01000200), (5, 0xCAFEF00D)])
      (fun t => mem t 0x0100023C 4 == 0xCAFEF00D) = true := by decide

theorem test_movWStoreIdx_V40_24 :
    runs 0x0455
      (regs [(0, 0xFFFFFFFE), (4, 0x01000202), (5, 0x0000BEEF)])
      (fun t => mem t 0x01000200 2 == 0xBEEF) = true := by decide

theorem test_movLStoreGbr_V40_25 :
    runs 0xC2FF
      { regs [(0, 0x55AA55AA)] with gbr := 0x01000000 }
      (fun t => mem t 0x010003FC 4 == 0x55AA55AA) = true := by decide

theorem test_mova_V40_27 :
    runs 0xC700
      { start with pc := 0x01000106, curAddr := 0x01000102 }
      (fun t => t.reg 0 == 0x01000104) = true := by decide

theorem test_swapB_V40_29 :
    runs 0x6128
      (regs [(2, 0x11223344)])
      (fun t => t.reg 1 == 0x11224433) = true := by decide

theorem test_xtrct_V40_31 :
    runs 0x212D
      (regs [(1, 0xAAAABBBB), (2, 0xCCCCDDDD)])
      (fun t => t.reg 1 == 0xDDDDAAAA) = true := by decide

theorem test_movBPostInc_V40_33 :
    runs 0x6324
      (put 0x01000200 1 0xFE <|
      regs [(2, 0x01000200)])
      (fun t => t.reg 2 == 0x01000201 && t.reg 3 == 0xFFFFFFFE) = true := by decide

theorem test_movBStoreGbr_V40_41 :
    runs 0xC0FF
      { regs [(0, 0x00001234)] with gbr := 0x01000200 }
      (fun t => mem t 0x010002FF 1 == 0x34) = true := by decide

theorem test_movLLoad_V40_46 :
    runs 0x6312
      (put 0x01000200 4 0x600DCAFE <|
      regs [(1, 0x21000200)])
      (fun t => t.reg 3 == 0x600DCAFE) = true := by decide

theorem test_addc_V41_3 :
    runs 0x312E
      { regs [(1, 0xFFFFFFFF), (2, 0)] with sr := { start.sr with t := true } }
      (fun t => t.reg 1 == 0) = true := by decide

theorem test_addc_V41_4 :
    runs 0x312E
      { regs [(1, 0x7FFFFFFF), (2, 0x7FFFFFFF)] with sr := { start.sr with t := true } }
      (fun t => t.reg 1 == 0xFFFFFFFF && !t.sr.t) = true := by decide

theorem test_addv_V41_5 :
    runs 0x312F
      (regs [(1, 0x7FFFFFFF), (2, 1)])
      (fun t => t.reg 1 == 0x80000000 && t.sr.t) = true := by decide

theorem test_addv_V41_6 :
    runs 0x312F
      { regs [(1, 1), (2, 1)] with sr := { start.sr with t := true } }
      (fun t => t.reg 1 == 2 && !t.sr.t) = true := by decide

theorem test_cmpEqImm_V41_8 :
    runs 0x88FF
      (regs [(0, 0xFFFFFFFF)])
      (fun t => t.sr.t) = true := by decide

theorem test_cmpGe_V41_10 :
    runs 0x3123
      { regs [(1, 0x80000000), (2, 1)] with sr := { start.sr with t := true } }
      (fun t => !t.sr.t) = true := by decide

theorem test_cmpHi_V41_11 :
    runs 0x3126
      { regs [(1, 5), (2, 5)] with sr := { start.sr with t := true } }
      (fun t => !t.sr.t) = true := by decide

theorem test_cmpGt_V41_12 :
    runs 0x3127
      (regs [(1, 1), (2, 0xFFFFFFFF)])
      (fun t => t.sr.t) = true := by decide

theorem test_cmpStr_V41_16 :
    runs 0x212C
      { regs [(1, 0x01020304), (2, 0x10203040)] with sr := { start.sr with t := true } }
      (fun t => !t.sr.t) = true := by decide

theorem test_div0s_V41_17 :
    runs 0x2127
      (regs [(1, 0x80000000), (2, 1)])
      (fun t => t.sr.t && t.sr.q) = true := by decide

theorem test_div1_V41_19 :
    runs 0x3104
      (regs [(0, 0x00070000), (1, 0x00000064)])
      (fun t => t.reg 1 == 0xFFF900C8 && t.sr.q) = true := by decide

theorem test_dmulsL_V41_20 :
    runs 0x312D
      (regs [(1, 0xFFFFFFFE), (2, 3)])
      (fun t => t.mach == 0xFFFFFFFF && t.macl == 0xFFFFFFFA) = true := by decide

theorem test_dmuluL_V41_21 :
    runs 0x3125
      (regs [(1, 0xFFFFFFFF), (2, 0xFFFFFFFF)])
      (fun t => t.mach == 0xFFFFFFFE && t.macl == 1) = true := by decide

theorem test_dt_V41_23 :
    runs 0x4110
      { regs [(1, 0)] with sr := { start.sr with t := true } }
      (fun t => t.reg 1 == 0xFFFFFFFF && !t.sr.t) = true := by decide

theorem test_extsB_V41_24 :
    runs 0x612E
      (regs [(2, 0x000000F0)])
      (fun t => t.reg 1 == 0xFFFFFFF0) = true := by decide

theorem test_macL_V41_28 :
    runs 0x012F
      (put 0x01000208 4 0x7FFFFFFF <|
      put 0x01000200 4 0x7FFFFFFF <|
      { regs [(1, 0x01000200), (2, 0x01000208)] with
          mach := 0x00007FFF, sr := { start.sr with s := true } })
      (fun t => t.reg 1 == 0x01000204 && t.reg 2 == 0x0100020C && t.macl == 0xFFFFFFFF) = true :=
        by decide

theorem test_macL_V41_29 :
    runs 0x011F
      (put 0x01000204 4 3 <|
      put 0x01000200 4 2 <|
      { regs [(1, 0x01000200)] with macl := 1 })
      (fun t => t.reg 1 == 0x01000208 && t.macl == 7) = true := by decide

theorem test_macW_V41_30 :
    runs 0x412F
      (put 0x01000208 2 0x8000 <|
      put 0x01000200 2 0x8000 <|
      regs [(1, 0x01000200), (2, 0x01000208)])
      (fun t => t.reg 1 == 0x01000202 && t.reg 2 == 0x0100020A && t.macl == 0x40000000) = true :=
        by decide

theorem test_macW_V41_31 :
    runs 0x412F
      (put 0x01000208 2 1 <|
      put 0x01000200 2 1 <|
      { regs [(1, 0x01000200), (2, 0x01000208)] with
          macl := 0x7FFFFFFF, sr := { start.sr with s := true } })
      (fun t => t.reg 1 == 0x01000202 && t.reg 2 == 0x0100020A && t.mach == 1) = true := by decide

theorem test_mulsW_V41_33 :
    runs 0x212F
      (regs [(1, 0x0000FFFF), (2, 2)])
      (fun t => t.macl == 0xFFFFFFFE) = true := by decide

theorem test_negc_V41_36 :
    runs 0x612A
      { regs [(2, 0)] with sr := { start.sr with t := true } }
      (fun t => t.reg 1 == 0xFFFFFFFF) = true := by decide

theorem test_subc_V41_40 :
    runs 0x312A
      { regs [(1, 5), (2, 3)] with sr := { start.sr with t := true } }
      (fun t => t.reg 1 == 1 && !t.sr.t) = true := by decide

theorem test_subv_V41_41 :
    runs 0x312B
      (regs [(1, 0x80000000), (2, 1)])
      (fun t => t.reg 1 == 0x7FFFFFFF && t.sr.t) = true := by decide

theorem test_andB_V42_3 :
    runs 0xCD0F
      (put 0x01000204 1 0xFF <|
      { regs [(0, 4)] with gbr := 0x01000200 })
      (fun t => mem t 0x01000204 1 == 0x0F) = true := by decide

theorem test_orImm_V42_6 :
    runs 0xCB80
      (regs [(0, 0)])
      (fun t => t.reg 0 == 0x00000080) = true := by decide

theorem test_tas_V42_8 :
    runs 0x411B
      (put 0x01000200 1 0 <|
      regs [(1, 0x01000200)])
      (fun t => t.sr.t && mem t 0x01000200 1 == 0x80) = true := by decide

theorem test_tas_V42_9 :
    runs 0x411B
      (put 0x01000200 1 0x81 <|
      { regs [(1, 0x01000200)] with sr := { start.sr with t := true } })
      (fun t => !t.sr.t && mem t 0x01000200 1 == 0x81) = true := by decide

theorem test_tstB_V42_12 :
    runs 0xCC80
      (put 0x01000200 1 0x7F <|
      { regs [(0, 0)] with gbr := 0x01000200 })
      (fun t => t.sr.t) = true := by decide

theorem test_xorB_V42_15 :
    runs 0xCEFF
      (put 0x01000201 1 0x0F <|
      { regs [(0, 1)] with gbr := 0x01000200 })
      (fun t => mem t 0x01000201 1 == 0xF0) = true := by decide

theorem test_rotl_V43_1 :
    runs 0x4104
      (regs [(1, 0x80000001)])
      (fun t => t.reg 1 == 3 && t.sr.t) = true := by decide

theorem test_rotcl_V43_3 :
    runs 0x4124
      { regs [(1, 0x80000000)] with sr := { start.sr with t := true } }
      (fun t => t.reg 1 == 1) = true := by decide

theorem test_rotcr_V43_4 :
    runs 0x4125
      (regs [(1, 1)])
      (fun t => t.reg 1 == 0 && t.sr.t) = true := by decide

theorem test_shar_V43_6 :
    runs 0x4121
      (regs [(1, 0x80000001)])
      (fun t => t.reg 1 == 0xC0000000 && t.sr.t) = true := by decide

theorem test_shll_V43_7 :
    runs 0x4100
      { regs [(1, 0x7FFFFFFF)] with sr := { start.sr with t := true } }
      (fun t => t.reg 1 == 0xFFFFFFFE && !t.sr.t) = true := by decide

theorem test_shll2_V43_9 :
    runs 0x4108
      { regs [(1, 0xC0000001)] with sr := { start.sr with t := true } }
      (fun t => t.reg 1 == 4) = true := by decide

theorem test_shlr8_V43_12 :
    runs 0x4119
      (regs [(1, 0x12345678)])
      (fun t => t.reg 1 == 0x00123456) = true := by decide

theorem test_bf_V44_1 :
    runs 0x8B02
      start
      (fun t => t.pc == 0x01000108 && !t.pipe.valid) = true := by decide

theorem test_bf_V44_3 :
    runs 0x8B80
      start
      (fun t => t.pc == 0x01000004 && !t.pipe.valid) = true := by decide

theorem test_bfS_V44_5 :
    runs 0x8F02
      { start with sr := { start.sr with t := true } }
      (fun t => t.pc == 0x01000104 && !t.inDelaySlot) = true := by decide

theorem test_btS_V44_7 :
    runs 0x8DFE
      { start with sr := { start.sr with t := true } }
      (fun t => t.pc == 0x01000100 && t.inDelaySlot) = true := by decide

theorem test_bra_V44_8 :
    runs 0xA800
      start
      (fun t => t.pc == 0x00FFF104 && t.inDelaySlot) = true := by decide

theorem test_bsr_V44_11 :
    runs 0xB010
      start
      (fun t => t.pr == 0x01000104 && t.pc == 0x01000124 && t.inDelaySlot) = true := by decide

theorem test_jmp_V44_13 :
    runs 0x432B
      (regs [(3, 0x00000801)])
      (fun t => t.pc == 0x00000801 && t.inDelaySlot) = true := by decide

theorem test_bra_V44_16 :
    faults 0xA010
      { start with inDelaySlot := true }
      (.slotIllegal 0xA010) = true := by decide

theorem test_ldcSr_V45_3 :
    runs 0x410E
      { regs [(1, 0xFFFFFFFF)] with sr := { start.sr with i := 0 } }
      (fun t => t.sr.t && t.sr.s && t.sr.q && t.sr.m && t.sr.i == 15 && t.inNoIntSlot) = true :=
        by decide

theorem test_ldcLSr_V45_6 :
    runs 0x4F07
      (put 0x010003F8 4 0x000000F0 <|
      { regs [(15, 0x010003F8)] with sr := { start.sr with i := 3 } })
      (fun t => t.reg 15 == 0x010003FC && t.sr.i == 15 && t.inNoIntSlot) = true := by decide

theorem test_rte_V45_11 :
    runs 0x002B
      (put 0x010003FC 4 0x000000F1 <|
      put 0x010003F8 4 0x01000300 <|
      { regs [(15, 0x010003F8)] with sr := { start.sr with i := 3 } })
      (fun t => t.reg 15 == 0x01000400 && t.sr.t && t.sr.i == 15 && t.pc == 0x01000300 &&
        t.inDelaySlot) = true := by decide

theorem test_sleep_V45_13 :
    runs 0x001B
      start
      (fun t => t.sleeping) = true := by decide

theorem test_stcSr_V45_14 :
    runs 0x0102
      { start with
          sr := { start.sr with t := true, s := true, q := true, m := true, i := 15 } }
      (fun t => t.reg 1 == 0x000003F3) = true := by decide

theorem test_trapa_V45_18 :
    runs 0xC320
      (put 0x01000880 4 0x01000600 <|
      { regs [(15, 0x01000400)] with
          vbr := 0x01000800, sr := { start.sr with t := true, i := 5 } })
      (fun t => t.reg 15 == 0x010003F8 && t.pc == 0x01000600 && !t.pipe.valid && mem t 0x010003FC
        4 == 0x00000051 && mem t 0x010003F8 4 == 0x01000102) = true := by decide

theorem test_trapa_V45_19 :
    faults 0xC320
      { regs [(15, 0x01000402)] with vbr := 0x01000800 }
      (.misaligned 0x010003FE 4) = true := by decide

theorem test_ldsLMach_V45_25 :
    runs 0x4F06
      (put 0x010003F8 4 0x000003FF <|
      regs [(15, 0x010003F8)])
      (fun t => t.reg 15 == 0x010003FC && t.mach == 0x000003FF) = true := by decide

theorem test_stcLSr_V45_29 :
    runs 0x4F03
      { regs [(15, 0x01000400)] with sr := { start.sr with t := true, i := 7 } }
      (fun t => t.reg 15 == 0x010003FC && mem t 0x010003FC 4 == 0x00000071) = true := by decide

/-! ### The bus, the devices and the pipeline (95_test_vectors.md parts 1, 2, 4 and 5) -/

/-- E4. -/
theorem test_translate :
    physical 0x0F123456 = 0x0F123456 ∧ physical 0xAF123456 = 0x0F123456 ∧
    physical 0x1A000000 = 0x02000000 ∧ physical 0x08000010 = 0x10 ∧
    physical 0x25FFFE00 = 0x05FFFE00 ∧ physical 0x07FFFFFF = 0x07FFFFFF := by decide

/-- A bus operation ends with a platform that passes the check. -/
def ends (r : Io) (check : Platform → Bool) : Bool :=
  match r with
  | .ok p => check p
  | .raise _ _ => false
  | .hang => false

/-- Part 4.1, steps 1, 5 and 7. -/
theorem test_byte_order :
    ends ((start.plat.write .long 0x01000200 0x11223344).bind fun p => p.write .byte 0x01000201
      0xAA)
      (fun p => (p.read .long 0x81000200).1 == 0x11AA3344) = true := by decide

/-- Part 4.3, rows 1 to 3. -/
theorem test_byte_lanes :
    ends ((start.plat.write .long 0x05FFFF84 0x12345678).bind fun p => p.write .byte 0x05FFFF84
      0xAB)
      (fun p => p.intc.ipra == 0xAB34 && p.intc.iprb == 0x5678) = true := by decide

/-- E2: a written 0 is stored as 0x10000 and reads back as 0. -/
theorem test_tcr_zero :
    ends (start.plat.write .word 0x05FFFF4A 0)
      (fun p => (p.chan 0).count == 0x10000 && (p.read .word 0x05FFFF4A).1 == 0) = true := by decide

/-- E5: the copy of four bytes inside the write of CHCR0. -/
theorem test_dma_copy :
    ends (((((start.plat.write .long 0x01000200 0x11223344).bind fun p =>
      p.write .long 0x05FFFF40 0x01000200).bind fun p =>
      p.write .long 0x05FFFF44 0x01000300).bind fun p =>
      p.write .word 0x05FFFF4A 4).bind fun p => p.write .word 0x05FFFF4E 0x5C01)
      (fun p => (p.read .long 0x01000300).1 == 0x11223344 && (p.chan 0).chcr == 0x5C03 &&
        (p.chan 0).sar == 0x01000204 && (p.chan 0).count == 0) = true := by decide

/-- S2: with SMR = 0 and BRR = 0 the first bit event is due 32 cycles after the write of TDR. -/
theorem test_serial_start :
    ends (((start.plat.write .byte 0x05FFFEC1 0).bind fun p =>
      p.write .byte 0x05FFFEC2 0x20).bind fun p => p.write .byte 0x05FFFEC3 0x41)
      (fun p => p.sci0.busy && p.sci0.txEmpty && !p.sci0.tend && p.lines.sci0Tx &&
        decide (p.events = [{ domain := 0, target := 32, port := .sci0 }])) = true := by decide

/-- Part 2.1, rows 1, 2 and 5 to 8, and the last. -/
theorem test_acceptance :
    let accepts := fun (p : Nat) (i : BitVec 4) (valid slot noInt : Bool) =>
      State.canAccept
        { start with
          sr := { start.sr with i := i }, pipe := { start.pipe with valid := valid }
          inDelaySlot := slot, inNoIntSlot := noInt }
        { vector := 64, priority := p }
    accepts 5 3 true false false = true ∧ accepts 3 3 true false false = false ∧
    accepts 16 15 true false false = true ∧ accepts 16 15 false false false = false ∧
    accepts 5 0 true true false = false ∧ accepts 5 0 true false true = false ∧
    accepts 0 0 true false false = false := by decide

/-! ### What the host asks of `withFetchWord` -/

/-- The answer is a next state. -/
def isNext : Answer → Bool
  | .next _ => true
  | _ => false

theorem test_fetch_word :
    isNext (step (State.reset.withFetchWord 16 0x0009)) = true ∧
    isNext (step (State.reset.withFetchWord 16 0x0000)) = false ∧
    decodeTableWord 16 0x3A5C = some (.add 5 10) := by decide

/-! ### Witnesses: for every obligation with hypotheses, states and operands that meet them -/

/-- The start state, a ready point at which the pipeline holds NOP. -/
theorem witness_StepRunsTheDecodedInstruction :
    AtReadyPoint start ∧ start.sleeping = false ∧ NothingTaken start ∧ start.pc.toNat % 2 = 0 ∧
    start.pipe.valid = true ∧ hookAt start.pipe.src start.plat.hooks = none ∧ Holding start .nop :=
  ⟨⟨rfl, by decide, by decide⟩, rfl, ⟨by rintro r ⟨⟩, by unfold AddressErrorDue; decide⟩, by decide,
    rfl, rfl, rfl, by decide⟩

theorem witness_WordSelectsItsRow :
    decodeWord 0xFFFC = none ∧ decodeWord 0x3FFC = some (.add 15 15) ∧
    (0x3FFC : Half) &&& (Instr.add 0 0).maskWord = (Instr.add 0 0).matchWord := by decide

/-- A word that meets no row, and an SH-2-only word with the parameter false. -/
theorem witness_IllegalWordsFault :
    (∀ j : Instr, (0x0000 : Half) &&& j.maskWord ≠ j.matchWord) ∧
    (∀ j : Instr, (0x8A00 : Half) &&& j.maskWord ≠ j.matchWord) ∧
    (let s : State := { start with plat := { start.plat with
        params := { start.plat.params with sh2Extensions := false } } }
     s.plat.params.sh2Extensions = false ∧ sh2Form (.dt 1) = true ∧
       (0x4110 : Half) &&& (Instr.dt 1).maskWord = (Instr.dt 1).matchWord) :=
  ⟨by intro j; cases j <;> (simp only [Instr.maskWord, Instr.matchWord]; decide),
    by intro j; cases j <;> (simp only [Instr.maskWord, Instr.matchWord]; decide), rfl, rfl, rfl⟩

theorem witness_ResetValues : ∃ e, (Platform.powerOn Launch.empty).target 0 = .buffer e :=
  ⟨_, rfl⟩

/-- The start state meets the invariant, and its cycle ends in a next state. -/
theorem witness_StepKeepsInvariant : start.Inv ∧ isNext (step start) = true :=
  ⟨⟨⟨by decide, by intro c; constructor <;> revert c <;> decide,
    by intro port; cases port <;> constructor <;> decide, by decide, by decide, by decide⟩,
    by decide, by decide⟩, by decide⟩

theorem witness_PipelineFollowsPc :
    start.plat.hooks = [] ∧ start.pipe.valid = true ∧ start.inDelaySlot = false ∧
    start.pipe.src = start.pc - 2 ∧ isNext (step start) = true :=
  ⟨rfl, rfl, rfl, by decide, by decide⟩

/-- The start state with its pipeline invalid and `a` in PC. -/
def fetchingAt (a : Word) : State :=
  { start with pc := a, pipe := { start.pipe with valid := false } }

/-- An even PC with an invalid pipeline, in a buffer; and the odd PC after it. -/
theorem witness_FetchAtPc :
    (let s := fetchingAt 0x00000FFE
     AtReadyPoint s ∧ s.sleeping = false ∧ NothingTaken s ∧ s.pc.toNat % 2 = 0 ∧
       s.pipe.valid = false ∧ ∃ e, s.plat.target (physical s.pc) = .buffer e) ∧
    (let s := fetchingAt 0x00000FFF
     AtReadyPoint s ∧ s.sleeping = false ∧ NothingTaken s ∧ s.pc.toNat % 2 = 1) :=
  ⟨⟨⟨rfl, by decide, by decide⟩, rfl, ⟨by rintro r ⟨⟩, by unfold AddressErrorDue; decide⟩, by
    decide, rfl, _, rfl⟩,
    ⟨rfl, by decide, by decide⟩, rfl, ⟨by rintro r ⟨⟩, by unfold AddressErrorDue; decide⟩, by
      decide⟩

/-- The start state holding a request of priority `p` under the mask 3. -/
def holding (p : Nat) : State :=
  { start with sr := { start.sr with i := 3 }, pending := some { vector := 64, priority := p } }

/-- The priority just above the mask, and the mask's own. -/
theorem witness_RequestAcceptance :
    (holding 4).pending = some { vector := 64, priority := 4 } ∧
    ¬ AddressErrorDue (holding 4) ∧
    Acceptable (holding 4) { vector := 64, priority := 4 } ∧
    ¬ Acceptable (holding 3) { vector := 64, priority := 3 } :=
  ⟨rfl, by unfold AddressErrorDue; decide, ⟨by decide, rfl, rfl, rfl⟩, fun h => absurd h.1 (by
    decide)⟩

theorem witness_SleepingCpuWaits :
    let s := { holding 3 with sleeping := true }
    AtReadyPoint s ∧ s.sleeping = true ∧ ∀ r, s.pending = some r → ¬ Acceptable s r :=
  ⟨⟨rfl, by decide, by decide⟩, rfl, by rintro r ⟨⟩ h; exact absurd h.1 (by decide)⟩

theorem witness_FaultedCpuStays :
    ({ start with fault := some { reason := .illegalInstruction 0, at_ := 0 } } :
      State).fault.isSome = true := rfl

/-- An empty slot, and a held request under either policy. -/
theorem witness_AssertIrqPolicy :
    start.fault = none ∧ start.pending = none ∧ (holding 5).fault = none ∧
    (holding 5).pending = some { vector := 64, priority := 5 } ∧
    (holding 5).plat.params.irqSlotPolicy = .overwrite ∧
    ({ (holding 5).plat.params with irqSlotPolicy := .keepHigher } : Params).irqSlotPolicy =
      .keepHigher := ⟨rfl, rfl, rfl, rfl, rfl, rfl⟩

/-- A stack pointer and a vector base in DRAM. -/
def stacked : State := { regs [(15, 0x01000008)] with vbr := 0x01000800 }

/-- The stack pointer as low as two pushes leave it in DRAM. -/
theorem witness_ExceptionEntry :
    Canonical stacked.plat ∧ Aligned .long (stacked.reg 15) ∧
    Aligned .long (BitVec.ofNat 32 (stacked.vbr.toNat + 4 * (255 : BitVec 8).toNat)) ∧
    Writable stacked.plat (decremented .long (stacked.reg 15)) ∧
    Writable stacked.plat (decremented .long (decremented .long (stacked.reg 15))) :=
  ⟨rfl, rfl, rfl, ⟨_, rfl, rfl⟩, ⟨_, rfl, rfl⟩⟩

/-- The part of an entry or an instruction ends, or raises a fault, with a state that passes the
check. -/
def endsRun (r : Run Unit) (check : State → Bool) : Bool :=
  match r with
  | .ok _ t => check t
  | _ => false

/-- The same for a fault. -/
def failsRun (r : Run Unit) (check : FaultRecord → State → Bool) : Bool :=
  match r with
  | .raise f t => check f t
  | _ => false

/-- A due address error, with a held request beside it; and a held request alone, awake and asleep.
Its entry leaves an even PC, with an odd vector an odd one, and with an odd stack pointer it faults. -/
theorem witness_DispatchThenFetch :
    (let s := { stacked with
                pendingAddressError := true, pending := some { vector := 64, priority := 16 } }
     AtReadyPoint s ∧ s.sleeping = false ∧ AddressErrorDue s) ∧
    endsRun (enterException 9 none (waited stacked)) (fun t => t.pc.toNat % 2 == 0) = true ∧
    endsRun (enterException 9 none (waited (put 0x01000824 4 0x01000301 stacked)))
      (fun t => t.pc.toNat % 2 == 1) = true ∧
    failsRun (enterException 9 none (waited (regs [(15, 1)]))) (fun _ _ => true) = true ∧
    (stacked.pending = none ∧ ¬ AddressErrorDue stacked) ∧
    (let s := { stacked with pending := some { vector := 64, priority := 16 } }
     AtReadyPoint s ∧ ¬ AddressErrorDue s ∧ Acceptable s { vector := 64, priority := 16 }) ∧
    (let s := { stacked with pending := some { vector := 64, priority := 16 }, sleeping := true }
     AtReadyPoint s ∧ s.sleeping = true ∧ Acceptable s { vector := 64, priority := 16 }) := by
  unfold AtReadyPoint AddressErrorDue Acceptable
  refine ⟨by decide, by decide, by decide, by decide, by decide, by decide, by decide⟩

/-- The start state with a hook where its pipeline's word stands. -/
def hooked : State :=
  { start with plat := { start.plat with hooks := [{ address := 0x01000102, handler := 7 }] } }

/-- The same with a word that is no instruction. -/
def hookedIllegal : State := { hooked with pipe := { hooked.pipe with instruction := 0xFFFF } }

theorem hookedIllegal_holds_nothing (i : Instr) : ¬ Holding hookedIllegal i := by
  intro h
  have : decode [0xFF#8, 0xFF#8] = .error (.illegal 0xFFFF) := rfl
  cases this.symm.trans h.1

/-- Either clause speaks of the handler's answer, a free value, of which one always holds. -/
theorem witness_HookedInstruction :
    AtReadyPoint hooked ∧ hooked.sleeping = false ∧ NothingTaken hooked ∧ hooked.pc.toNat % 2 = 0 ∧
    hooked.pipe.valid = true ∧
    hookAt hooked.pipe.src hooked.plat.hooks = some { address := 0x01000102, handler := 7 } ∧
    Holding hooked .nop ∧ (∀ i, ¬ Holding hookedIllegal i) ∧
    (let reply := Config.hookReply 7 hooked.pipe.src (executing hooked)
     reply.suppress = true ∨ reply.suppress = false) :=
  ⟨⟨rfl, by decide, by decide⟩, rfl, ⟨by rintro r ⟨⟩, by unfold AddressErrorDue; decide⟩, by decide,
    rfl, rfl, ⟨rfl, by decide⟩, hookedIllegal_holds_nothing,
    Bool.eq_false_or_eq_true _⟩

/-- No move, one that is due in this cycle, and one that is due in the next; a raised interrupt
inside and outside the default `ENV_IRQ`. -/
theorem witness_EnvironmentSchedule :
    start.plat.env = [] ∧ start.plat.now = 0 ∧
    (let s := { start with plat := { start.plat with env := [(0, .raise .nmi), (1, .removeHook 0)]
      } }
     s.plat.env = (0, .raise .nmi) :: [(1, .removeHook 0)] ∧ 0 ≤ s.plat.now) ∧
    (let s := { start with plat := { start.plat with env := [(1, .removeHook 0)] } }
     s.plat.env = (1, .removeHook 0) :: [] ∧ s.plat.now < 1) ∧
    EnvIrq.nmi ∈ start.plat.params.envIrq ∧ EnvIrq.irq 7 ∉ start.plat.params.envIrq := by decide

/-- A map in which a ROM page lies just below a RAM page. -/
def adjacentMap : List Region :=
  [ { kind := .buffer .bios { page := 0, size := 0x1000, fill := 0xFF }, base := 0, size := 0x1000
    },
    { kind := .buffer .dram { page := 1, size := 0x1000, fill := 0 }, base := 0x1000, size :=
      0x1000 } ]

/-- The start state over a memory map. -/
def withMap (map : List Region) : State :=
  { start with plat :=
      { start.plat with
        params := { start.plat.params with memoryMap := map }, pageTable := buildPageTable map } }

/-- A misaligned stack pointer; a first push to ROM; a second push to ROM after one to RAM; and an
odd vector base. -/
theorem witness_EntryFaults :
    ¬ Aligned .long ((regs [(15, 0x01000402)]).reg 15) ∧
    (let s := regs [(15, 0x00001000)]
     Aligned .long (s.reg 15) ∧ ReadOnly s.plat (decremented .long (s.reg 15))) ∧
    (let s := (withMap adjacentMap).setReg 15 0x00001004
     Aligned .long (s.reg 15) ∧ Canonical s.plat ∧ Writable s.plat (decremented .long (s.reg 15)) ∧
       ReadOnly s.plat (decremented .long (decremented .long (s.reg 15)))) ∧
    (let s := { stacked with vbr := 0x01000802 }
     Aligned .long (s.reg 15) ∧ Canonical s.plat ∧ Writable s.plat (decremented .long (s.reg 15)) ∧
       Writable s.plat (decremented .long (decremented .long (s.reg 15))) ∧
       ¬ Aligned .long (BitVec.ofNat 32 (s.vbr.toNat + 4 * (0 : BitVec 8).toNat))) :=
  ⟨by unfold Aligned; decide, ⟨rfl, _, rfl, rfl⟩, ⟨rfl, rfl, ⟨_, rfl, rfl⟩, _, rfl, rfl⟩,
    rfl, rfl, ⟨_, rfl, rfl⟩, ⟨_, rfl, rfl⟩, by unfold Aligned; decide⟩

theorem witness_TrapaTakesItsVector :
    stacked.inDelaySlot = false ∧ Canonical stacked.plat ∧ Aligned .long (stacked.reg 15) ∧
    Aligned .long (BitVec.ofNat 32 (stacked.vbr.toNat + 4 * (0 : BitVec 8).toNat)) ∧
    Writable stacked.plat (decremented .long (stacked.reg 15)) ∧
    Writable stacked.plat (decremented .long (decremented .long (stacked.reg 15))) :=
  ⟨rfl, rfl, rfl, rfl, ⟨_, rfl, rfl⟩, ⟨_, rfl, rfl⟩⟩

theorem witness_RteRestores : stacked.inDelaySlot = false ∧ Aligned .long (stacked.reg 15) :=
  ⟨rfl, rfl⟩

theorem witness_FormsWithoutOperands :
    start.plat.params.sleepPolicy = .halt ∧
    ({ start.plat.params with sleepPolicy := .spin } : Params).sleepPolicy = .spin := ⟨rfl, rfl⟩

theorem witness_SlotIllegalForms :
    changesPc (.trapa 0) = true ∧ changesPc .rte = true ∧ changesPc (.bfS 0) = true ∧
    ({ start with inDelaySlot := true } : State).inDelaySlot = true := ⟨rfl, rfl, rfl, rfl⟩

/-- A delayed branch opens a slot, LDC opens the other, NOP none. -/
theorem witness_SlotFlagsArePulses :
    runs 0xA000 start (fun t => t.inDelaySlot && !t.inNoIntSlot) = true ∧
    runs 0x411E start (fun t => t.inNoIntSlot) = true ∧
    runs 0x0009 start (fun t => !t.inDelaySlot && !t.inNoIntSlot) = true := by decide

/-- NOP is no form of any list, and completes. -/
theorem witness_OnlyListedFormsWriteFlagsAndSystemRegisters :
    isNext (exec .nop start) = true ∧ writesT .nop = false ∧ loadsSr .nop = false ∧
    writesPr .nop = false ∧ writesGbr .nop = false ∧ writesVbr .nop = false ∧
    writesMach .nop = false ∧ writesMacl .nop = false := by decide

/-- A form that writes no PC, and an instruction that faults. -/
theorem witness_OnlyBranchesWritePc :
    isNext (exec .nop start) = true ∧ changesPc .nop = false ∧
    faults 0x2121 (regs [(1, 0x01000201)]) (.misaligned 0x01000201 2) = true := by decide

/-- At the top of the address space, for every width. -/
theorem witness_LoadsComplete :
    (let s := regs [(1, 0xFFFFFFFF)]
     loadOf s (.movBLoad 1 2) = some (.byte, 0xFFFFFFFF, 2) ∧ Aligned .byte 0xFFFFFFFF) ∧
    (let s := regs [(1, 0xFFFFFFFE)]
     loadOf s (.movWLoad 1 2) = some (.word, 0xFFFFFFFE, 2) ∧ Aligned .word 0xFFFFFFFE) ∧
    (let s := regs [(1, 0xFFFFFFFC)]
     loadOf s (.movLLoad 1 2) = some (.long, 0xFFFFFFFC, 2) ∧ Aligned .long 0xFFFFFFFC) :=
  ⟨⟨rfl, rfl⟩, ⟨rfl, rfl⟩, ⟨rfl, rfl⟩⟩

theorem witness_PostIncrementLoadsComplete :
    popOf (.movLPostInc 1 2) = some (.long, 1, 2) ∧ popOf (.movLPostInc 1 1) = some (.long, 1, 1) ∧
    Aligned .long ((regs [(1, 0xFFFFFFFC)]).reg 1) := ⟨rfl, rfl, rfl⟩

/-- The last long of DRAM for the first clause, an unmapped address for the second. -/
theorem witness_StoresComplete :
    (let s := regs [(1, 0x0100FFFC), (2, 7)]
     storeOf s (.movLStore 2 1) = some (.long, 0x0100FFFC, 7) ∧ Aligned .long 0x0100FFFC ∧
       Canonical s.plat ∧ Writable s.plat 0x0100FFFC) ∧
    (let s := regs [(1, 0x03000000), (2, 7)]
     storeOf s (.movLStore 2 1) = some (.long, 0x03000000, 7) ∧
       s.plat.write .long 0x03000000 7 = .ok s.plat) :=
  ⟨⟨rfl, rfl, rfl, _, rfl, rfl⟩, rfl, rfl⟩

theorem witness_PreDecrementStoresComplete :
    (let s := regs [(15, 0x01000004)]
     pushOf s (.stsLPr 15) = some (.long, 15, 0) ∧ Aligned .long (s.reg 15) ∧ Canonical s.plat ∧
       Writable s.plat (decremented .long (s.reg 15))) ∧
    (let s := regs [(15, 0x03000004)]
     pushOf s (.stsLPr 15) = some (.long, 15, 0) ∧ Aligned .long (s.reg 15) ∧
       s.plat.write .long (decremented .long (s.reg 15)) 0 = .ok s.plat) :=
  ⟨⟨rfl, rfl, rfl, _, rfl, rfl⟩, rfl, rfl, rfl⟩

/-- A DMA channel that moves words from `src` to `dst`. -/
def channelOf (src dst : Word) : Platform :=
  start.plat.setChan 0 { sar := src, dar := dst, count := 1, chcr := 0x5C09, active := true }

/-- One past an aligned address, under either policy; MAC.L and MAC.W with Rn aligned and Rm one
unit's half past it; and a DMA channel of words with its source, then its destination odd. -/
theorem witness_MisalignedAccess :
    (let s := regs [(1, 0x01000201)]
     accessOf s (.movWLoad 1 2) = some (.word, 0x01000201) ∧ ¬ Aligned .word 0x01000201 ∧
     accessOf s .rte = some (.long, 0) ∧ s.inDelaySlot = false ∧
     s.plat.params.misalignedPolicy = .fault ∧
     ({ s.plat.params with misalignedPolicy := .addressError } : Params).misalignedPolicy =
       .addressError) ∧
    (let s := regs [(1, 0x01000202), (2, 0x01000200)]
     Aligned .long (s.reg 2) ∧ ¬ Aligned .long (s.reg 1)) ∧
    (let s := regs [(1, 0x01000201), (2, 0x01000200)]
     Aligned .word (s.reg 2) ∧ ¬ Aligned .word (s.reg 1)) ∧
    ¬ Aligned .word ((channelOf 0x01000201 0x01000300).chan 0).sar ∧
    Aligned .word ((channelOf 0x01000200 0x01000301).chan 0).sar ∧
    ¬ Aligned .word ((channelOf 0x01000200 0x01000301).chan 0).dar := by
  unfold Aligned; decide

/-- The last long of the BIOS page, stored and pushed to; its last byte modified; and the
destination of a DMA channel. -/
theorem witness_RomStoreFaults :
    (let s := regs [(1, 0x00000FFC)]
     storeOf s (.movLStore 2 1) = some (.long, 0x00000FFC, 0) ∧ Aligned .long 0x00000FFC ∧
       ReadOnly s.plat 0x00000FFC) ∧
    (let s := regs [(1, 0x00001000)]
     pushOf s (.movLPreDec 2 1) = some (.long, 1, 0) ∧
       decremented .long (s.reg 1) = 0x00000FFC) ∧
    (let s := regs [(1, 0x00000FFF)]
     (∃ f g, modifyOf s (.tas 1) = some (0x00000FFF, f, g)) ∧ ReadOnly s.plat 0x00000FFF) ∧
    (let p := channelOf 0x01000200 0x00000FFE
     Aligned .word (p.chan 0).sar ∧ Aligned .word (p.chan 0).dar ∧ ReadOnly p (p.chan 0).dar) :=
  ⟨⟨rfl, rfl, _, rfl, rfl⟩, ⟨rfl, rfl⟩, ⟨⟨_, _, rfl⟩, _, rfl, rfl⟩, rfl, rfl, _, rfl, rfl⟩

/-- Two registers, and one register for both operands. -/
theorem witness_MacLongAccumulates :
    let s := regs [(1, 0x01000200), (2, 0xFFFFFFFC)]
    Aligned .long (s.reg 1) ∧
    Aligned .long (if (1 : Reg) = 2 then incremented .long (s.reg 1) else s.reg 2) ∧
    Aligned .long (if (2 : Reg) = 2 then incremented .long (s.reg 2) else s.reg 2) :=
  ⟨rfl, rfl, rfl⟩

theorem witness_MacWordAccumulates :
    let s := { regs [(1, 0x01000200), (2, 0xFFFFFFFE)] with sr := { start.sr with s := true } }
    Aligned .word (s.reg 1) ∧
    Aligned .word (if (1 : Reg) = 2 then incremented .word (s.reg 1) else s.reg 2) ∧
    Aligned .word (if (2 : Reg) = 2 then incremented .word (s.reg 2) else s.reg 2) ∧
    s.sr.s = true ∧ start.sr.s = false := ⟨rfl, rfl, rfl, rfl, rfl⟩

/-- A DRAM byte for the first clause, an unmapped byte for the second. -/
theorem witness_LogicOnBytes :
    (∃ f g, modifyOf (regs [(1, 0x01000000)]) (.tas 1) = some (0x01000000, f, g)) ∧
    Canonical start.plat ∧ Writable start.plat 0x01000000 ∧
    (∃ f g, modifyOf (regs [(1, 0x03000000)]) (.tas 1) = some (0x03000000, f, g)) ∧
    (start.plat.read .byte 0x03000000).2.write .byte 0x03000000 0x80 = .ok start.plat :=
  ⟨⟨_, _, rfl⟩, rfl, ⟨_, rfl, rfl⟩, ⟨_, _, rfl⟩, rfl⟩

theorem witness_ConditionalBranches :
    start.inDelaySlot = false ∧ start.sr.t = false ∧
    ({ start with sr := { start.sr with t := true } } : State).sr.t = true := ⟨rfl, rfl, rfl⟩

theorem witness_UnconditionalBranches : start.inDelaySlot = false := rfl

theorem witness_ControlRegisterMoves : Aligned .long ((regs [(15, 0xFFFFFFFC)]).reg 15) := rfl

/-- The last byte of the BIOS page, and the last byte of DRAM through a mirror. -/
theorem witness_BufferAccessIsBigEndian :
    (∃ e, start.plat.target (physical 0x00000FFF) = .buffer e) ∧
    Canonical start.plat ∧ Writable start.plat 0x8100FFFF :=
  ⟨⟨_, rfl⟩, rfl, _, rfl, rfl⟩

/-- A buffer of one page and a byte. -/
def padded : Buffer := { page := 0x20, size := 0x1001, fill := 0x00 }

/-- A map with that buffer at two ranges, the second of one page. -/
def sharedMap : List Region :=
  [ { kind := .buffer .dram padded, base := 0x1000, size := 0x1001 },
    { kind := .buffer .cartSram padded, base := 0x8000, size := 0x1000 } ]

/-- The second page of the first region and the only one of the second; one place under two
addresses; and the first byte of the padding. -/
theorem witness_MapPlacesBuffers :
    (4096 * 1 < 0x1001 ∧ 4096 * 1 < padded.size) ∧
    (0x8000 / 4096 + 0 < 0x1000 / 4096 ∨ 0x1000 / 4096 + (0x1001 + 4095) / 4096 ≤ 0x8000 / 4096 +
      0) ∧
    (let p := (withMap sharedMap).plat
     Canonical p ∧ Writable p 0x1FFF ∧ (∃ e, p.target (physical 0x8FFF) = .buffer e) ∧
       place p 0x8FFF = place p 0x1FFF ∧ (∃ q, p.write .byte 0x1FFF 5 = .ok q)) ∧
    (let p := (withMap sharedMap).plat
     (∀ b, (0x21001, b) ∉ p.mem) ∧ (∃ e ∈ p.pageTable, bufferHolds e.buffer 0x21001 = true) ∧
       ∀ e ∈ p.pageTable, bufferHolds e.buffer 0x21001 = true →
         4096 * e.buffer.page + e.buffer.size ≤ 0x21001) := by
  refine ⟨by decide, by decide, ⟨rfl, ⟨_, rfl, rfl⟩, ⟨_, rfl⟩, rfl, _, rfl⟩, ?_, by decide, by
    decide⟩
  intro b hb
  exact absurd hb (by simp [withMap, start, State.reset, State.powerOn, Platform.powerOn,
    Launch.empty,
    Memory.load])

/-- The first byte after DRAM. -/
theorem witness_UnmappedAccess : start.plat.target (physical 0x01010000) = .unmapped := rfl

/-- A map with a VDP region. -/
def deviceMap : List Region := [{ kind := .device .vdp, base := 0x05E00000, size := 0x100 }]

/-- The bytes before the first port, between the ports, and after the last register; and the last
byte of a device region. -/
theorem witness_UnassignedAndEnvironmentAccess :
    (start.plat.target (physical 0x05FFFEBC) = .onchip 0xBC ∧ ∀ k, k < 4 → ¬ assigned (0xBC + k)) ∧
    (start.plat.target (physical 0x05FFFEC6) = .onchip 0xC6 ∧ ∀ k, k < 2 → ¬ assigned (0xC6 + k)) ∧
    (start.plat.target (physical 0x05FFFF90) = .onchip 0x190 ∧ ∀ k, k < 4 → ¬ assigned (0x190 +
      k)) ∧
    ∃ r, (withMap deviceMap).plat.target (physical 0x05E000FF) = .device r :=
  ⟨⟨rfl, fun k hk => by unfold assigned; omega⟩,
    ⟨rfl, fun k hk => by unfold assigned; omega⟩,
    ⟨rfl, fun k hk => by unfold assigned; omega⟩,
    _, rfl⟩

/-- The first and the last register, a low and a high byte, and two pairs of registers. -/
theorem witness_IntcReadback :
    start.plat.target (physical 0x05FFFF84) = .onchip (intcOffset .ipra) ∧
    start.plat.target (physical 0x05FFFF8C) = .onchip (intcOffset .ipre) ∧
    start.plat.target (physical 0x05FFFF8E) = .onchip (intcOffset .icr) ∧
    start.plat.target (physical 0x05FFFF84) = .onchip (intcOffset .ipra + 0) ∧
    start.plat.target (physical 0x05FFFF8F) = .onchip (intcOffset .icr + 1) ∧
    intcOffset .iprb = intcOffset .ipra + 2 ∧ intcOffset .icr = intcOffset .ipre + 2 :=
  ⟨rfl, rfl, rfl, rfl, rfl, rfl, rfl⟩

theorem noDma_start : NoDma start.plat := by unfold NoDma; decide

/-- The registers of the first channel and of the last, and DMAOR. -/
theorem witness_DmaRegisterWrites :
    NoDma start.plat ∧
    start.plat.target (physical 0x05FFFF40) = .onchip (0x140 + 0x10 * (0 : Fin 4).val) ∧
    start.plat.target (physical 0x05FFFF74) = .onchip (0x144 + 0x10 * (3 : Fin 4).val) ∧
    start.plat.target (physical 0x05FFFF4A) = .onchip (0x14A + 0x10 * (0 : Fin 4).val) ∧
    start.plat.target (physical 0x05FFFF7A) = .onchip (0x14A + 0x10 * (3 : Fin 4).val) ∧
    start.plat.target (physical 0x05FFFF48) = .onchip 0x148 :=
  ⟨noDma_start, rfl, rfl, rfl, rfl, rfl⟩

/-- One value of each clause: IE, a reserved step, a value that is stored; C/A 1 and 0. -/
theorem witness_ControlRegisterRefusals :
    start.plat.target (physical 0x05FFFF4E) = .onchip (channelBase 0 + 0xE) ∧
    (0x0004 : Word).getLsbD 2 = true ∧
    ((0xC000 : Word).getLsbD 2 = false ∧ (0xC000 : Word).toNat / 2 ^ 14 % 4 = 3) ∧
    ((0x3000 : Word).getLsbD 2 = false ∧ (0x3000 : Word).toNat / 2 ^ 12 % 4 = 3) ∧
    ((0x5C02 : Word).getLsbD 2 = false ∧ (0x5C02 : Word).toNat / 2 ^ 14 % 4 ≠ 3 ∧
      (0x5C02 : Word).toNat / 2 ^ 12 % 4 ≠ 3) ∧
    start.plat.target (physical 0x05FFFEC0) = .onchip (portBase .sci0) ∧
    (0x80 : Word).getLsbD 7 = true ∧ (0x7F : Word).getLsbD 7 = false :=
  ⟨rfl, by decide, by decide, by decide, ⟨by decide, by decide, by decide⟩,
    rfl, by decide, by decide⟩

/-- A channel of the AUTO line that moves two words from DRAM downwards to one place of DRAM. -/
def autoChannel : DmaChannel :=
  { sar := 0x01000202, dar := 0x01000300, count := 2, chcr := 0x2C09, active := true }

/-- The units of the channel; no source meets a destination, and no later unit overwrites the last. -/
theorem witness_AutoTransferCompletes :
    let p := start.plat.setChan 0 autoChannel
    Canonical p ∧ p.rsLine autoChannel.rs = .auto ∧ StepsGiven autoChannel ∧
    BetweenBuffers p autoChannel ∧
    (∀ j k, j < 2 → k < 2 → Apart .word (place p (sourceAt autoChannel j))
      (place p (targetAt autoChannel k))) ∧
    (∀ j, 1 < j → j < 2 → Apart .word (place p (targetAt autoChannel j))
      (place p (targetAt autoChannel 1))) := by
  refine ⟨rfl, rfl, by unfold StepsGiven; decide, ⟨rfl, rfl, ?_⟩, ?_, fun j h h' => by omega⟩
  · intro k hk
    have hk : k < 2 := hk
    interval_cases k
    · exact ⟨⟨_, rfl⟩, _, rfl, rfl⟩
    · exact ⟨⟨_, rfl⟩, _, rfl, rfl⟩
  · intro j k hj hk
    unfold Apart
    interval_cases j <;> interval_cases k <;> decide

/-- A platform on which port 1 sends and its line is asserted, and channel 3 waits for that line. -/
def pacing : Platform :=
  { start.plat with
    sci1 := { start.plat.sci1 with scr := 0x20, busy := true }
    lines := { start.plat.lines with sci1Tx := true }
    dma := start.plat.dma.set 3
      { sar := 0x0100FFFF, dar := 0x05FFFECB, count := 1, chcr := 0x1701, active := false } }

/-- An idle channel, and a value that names AUTO and one that names no line; and a channel paced by a
port, with one unit left. -/
theorem witness_EnablingWriteRunsTheTransfer :
    (let p := start.plat.setChan 0 { autoChannel with active := false, chcr := 0 }
     let ch := fun v : Half => { p.chan 0 with chcr := v }
     p.target (physical 0x05FFFF4E) = .onchip (0x14E + 0x10 * (0 : Fin 4).val) ∧
     (ch 0x2C09).active = false ∧ (∀ c', c' ≠ 0 → (p.chan c').chcr.getLsbD 0 = false) ∧
     ((0x2009 : Word).toNat % 8 = 1 ∧ StepsGiven (ch 0x2009) ∧
       p.asserted (p.rsLine (ch 0x2009).rs) = false) ∧
     ((0x2C09 : Word).toNat % 8 = 1 ∧ StepsGiven (ch 0x2C09) ∧ p.rsLine (ch 0x2C09).rs = .auto ∧
       Canonical p ∧ BetweenBuffers p (ch 0x2C09))) ∧
    (let ch := pacing.chan 3
     ch.active = false ∧ ch.chcr.getLsbD 0 = true ∧ ch.chcr.getLsbD 1 = false ∧
     unitOf ch.chcr = .byte ∧ StepsGiven ch ∧ ch.count ≠ 0 ∧
     pacing.rsLine ch.rs = txLine .sci1 ∧ pacing.asserted (txLine .sci1) = true ∧
     (∀ c', c' ≠ 3 → (pacing.chan c').chcr.getLsbD 0 = false) ∧
     (∃ e, pacing.target (physical ch.sar) = .buffer e) ∧
     pacing.target (physical ch.dar) = .onchip (portBase .sci1 + 3) ∧
     (pacing.sci .sci1).busy = true) := by
  refine ⟨⟨rfl, rfl, by decide, ⟨by decide, by unfold StepsGiven; decide, by decide⟩, by decide,
      by unfold StepsGiven; decide, rfl, rfl, rfl, rfl, ?_⟩,
    rfl, by decide, by decide, rfl, by unfold StepsGiven; decide, by decide, rfl, rfl, by decide,
      ⟨_, rfl⟩, rfl, rfl⟩
  intro k hk
  have hk : k < 2 := hk
  interval_cases k
  · exact ⟨⟨_, rfl⟩, _, rfl, rfl⟩
  · exact ⟨⟨_, rfl⟩, _, rfl, rfl⟩

/-- A transmitter that is enabled, idle and busy, and one that is not, with its line down. -/
theorem witness_TdrWriteStartsOrQueues :
    let p := start.plat.setSci { start.plat.sci .sci0 with scr := 0x20 } .sci0
    let q := start.plat.setSci { start.plat.sci .sci1 with scr := 0x20, busy := true } .sci1
    (NoDma p ∧ p.target (physical 0x05FFFEC3) = .onchip (portBase .sci0 + 3) ∧
      (p.sci .sci0).scr.getLsbD 5 = true ∧ (p.sci .sci0).busy = false) ∧
    (NoDma q ∧ q.target (physical 0x05FFFECB) = .onchip (portBase .sci1 + 3) ∧
      (q.sci .sci1).scr.getLsbD 5 = true ∧ (q.sci .sci1).busy = true) ∧
    (NoDma start.plat ∧ start.plat.asserted (txLine .sci0) = false ∧
      (start.plat.sci .sci0).scr.getLsbD 5 = false) :=
  ⟨⟨noDma_start, rfl, by decide, rfl⟩, ⟨noDma_start, rfl, by decide, rfl⟩, noDma_start, rfl,
    by decide⟩

/-- The registers of either port. -/
theorem witness_SerialRegisterWrites :
    NoDma start.plat ∧
    start.plat.target (physical 0x05FFFEC2) = .onchip (portBase .sci0 + 2) ∧
    start.plat.target (physical 0x05FFFEC9) = .onchip (portBase .sci1 + 1) ∧
    start.plat.target (physical 0x05FFFECC) = .onchip (portBase .sci1 + 4) ∧
    start.plat.target (physical 0x05FFFECD) = .onchip (portBase .sci1 + 5) :=
  ⟨noDma_start, rfl, rfl, rfl, rfl⟩

/-- Two bits left and one; TDR empty; a byte queued, with TE and without it. -/
theorem witness_ByteTransmission :
    let at_ := fun (n : Nat) (e : Bool) (scr : Byte) =>
      start.plat.setSci
        { start.plat.sci .sci1 with bitsLeft := n, busy := true, txEmpty := e, scr := scr } .sci1
    1 < ((at_ 2 true 0x20).sci .sci1).bitsLeft ∧
    (((at_ 1 true 0x20).sci .sci1).bitsLeft = 1 ∧ ((at_ 1 true 0x20).sci .sci1).txEmpty = true) ∧
    ((at_ 1 false 0).sci .sci1).scr.getLsbD 5 = false ∧
    (((at_ 1 false 0x20).sci .sci1).txEmpty = false ∧
      ((at_ 1 false 0x20).sci .sci1).scr.getLsbD 5 = true ∧
      (at_ 1 false 0x20).asserted (txLine .sci1) = false ∧ NoDma (at_ 1 false 0x20)) :=
  ⟨by decide, ⟨rfl, rfl⟩, by decide, rfl, by decide, rfl, noDma_start⟩

/-- The start platform with the last bit of a byte due now and a bit of the other port due in a
cycle. -/
def firing : Platform :=
  { start.plat with
    sci0 := { start.plat.sci0 with bitsLeft := 1, busy := true }
    events := [{ domain := 0, target := 1, port := .sci1 }, { domain := 0, target := 0, port :=
      .sci0 }] }

/-- Nothing due; and one event due, whose handler leaves nothing due. -/
theorem witness_DueEventsFireInOrder :
    start.plat.tick 0 = some 0 ∧ start.plat.params.clockDomains = [] ∧ start.plat.dueIn 0 = [] ∧
    firing.dueIn 0 = [{ domain := 0, target := 0, port := .sci0 }] ∧
    ends (bitClock checkActivations .sci0 ((firing.now : Int) - 0)
        { firing with events := firing.events.filter fun e =>
            !(decide (e.domain = 0) && decide (e.target ≤ (firing.now : Int))) })
      (fun q => decide (q.dueIn 0 = [])) = true := by decide

end Sys2Proof.Tests
end

section
/-! PROOFS of the family 10_state.md. What no instruction changes but the listed forms: the status register
and the control and system registers are collected in one value, the shared operations are each shown to
leave it alone but for what their `put`, `use` or `flags` argument writes, and `exec` is then split by
form. -/

namespace Sys2Proof.Machine

open Sys2Proof.Claims

/-! ### The control and system registers as one value -/

/-- SR, PR, GBR, VBR, MACH and MACL (10_state.md R33 to R41). -/
structure Controls where
  sr   : StatusReg
  pr   : Word
  gbr  : Word
  vbr  : Word
  mach : Word
  macl : Word

/-- The control and system registers of a state. -/
def State.controls (s : State) : Controls := ⟨s.sr, s.pr, s.gbr, s.vbr, s.mach, s.macl⟩

/-! ### The shared operations, over all outcomes -/

section

variable {P : Controls → Prop} {s : State}

theorem done_controls (i : Instr) {t : State} (h : P t.controls) :
    (done i t).All (P ·.controls) := h

theorem takenBranch_controls (i : Instr) (target : Word) (h : P s.controls) :
    (takenBranch i target s).All (P ·.controls) := h

theorem delayedBranch_controls (i : Instr) (target : Word) {t : State} (h : P t.controls) :
    (delayedBranch i target t).All (P ·.controls) := h

theorem slotGuard_controls {body : Answer} (h : P s.controls) (hb : body.All (P ·.controls)) :
    (slotGuard s body).All (P ·.controls) := by
  unfold slotGuard
  split
  · exact h
  · exact hb

/-- A conditional branch, whichever way it goes. -/
theorem conditionalBranch_controls {c : Prop} [Decidable c] {a b : Answer} (h : P s.controls)
    (ha : a.All (P ·.controls)) (hb : b.All (P ·.controls)) :
    (slotGuard s (if c then a else b)).All (P ·.controls) := by
  refine slotGuard_controls h ?_
  split
  · exact ha
  · exact hb

theorem loadReg_controls (i : Instr) (z : Size) (a : Word) (n : Reg) (h : P s.controls) :
    (loadReg i z a n s).All (P ·.controls) := by
  obtain ⟨p, c, v, -, e | e | ⟨r, e⟩⟩ := loadReg_outcomes i z a n s <;> rw [e] <;> exact h

theorem storeValue_controls (i : Instr) (z : Size) (a v : Word) (h : P s.controls) :
    (storeValue i z a v s).All (P ·.controls) := by
  obtain ⟨p, c, -, e | e | ⟨r, e⟩ | e⟩ := storeValue_outcomes i z a v s <;> rw [e]
  · exact h
  · exact h
  · exact h
  · trivial

theorem pushValue_controls (i : Instr) (z : Size) (v : Word) (n : Reg) (h : P s.controls) :
    (pushValue i z v n s).All (P ·.controls) := by
  obtain ⟨p, c, -, e | e | ⟨r, e⟩ | e⟩ := pushValue_outcomes i z v n s <;> rw [e]
  · exact h
  · exact h
  · exact h
  · trivial

theorem popReg_controls (i : Instr) (z : Size) (m n : Reg) (h : P s.controls) :
    (popReg i z m n s).All (P ·.controls) := by
  obtain ⟨p, c, v, -, e | e | ⟨r, e⟩⟩ := popReg_outcomes i z m n s <;> rw [e] <;> exact h

theorem popControl_controls (i : Instr) (m : Reg) {put : State → Word → State} (h : P s.controls)
    (hput : ∀ t v, t.controls = s.controls → P (put t v).controls) :
    (popControl i m put s).All (P ·.controls) := by
  obtain ⟨p, c, v, -, e | e | ⟨r, e⟩⟩ := popControl_outcomes i m put s <;> rw [e]
  · exact hput _ v rfl
  · exact h
  · exact h

theorem modifyByte_controls (i : Instr) (a : Word) (f : Word → Word) {flags : Word → State → State}
    (h : P s.controls) (hflags : ∀ v t, t.controls = s.controls → P (flags v t).controls) :
    (modifyByte i a f flags s).All (P ·.controls) := by
  obtain ⟨p, c, v, -, e | ⟨r, e⟩ | e⟩ := modifyByte_outcomes i a f flags s <;> rw [e]
  · exact hflags v _ rfl
  · exact h
  · trivial

theorem modifyGbr_controls (i : Instr) (f : Word → Word) (h : P s.controls) :
    (modifyGbr i f s).All (P ·.controls) :=
  modifyByte_controls i _ f h fun _ _ e => e ▸ h

theorem macOperands_controls (i : Instr) (z : Size) (m n : Reg) {use : Word → Word → State → State}
    (h : P s.controls) (huse : ∀ x y t, t.controls = s.controls → P (use x y t).controls) :
    (macOperands i z m n use s).All (P ·.controls) := by
  obtain ⟨p, c, x, y, w, w', -, e | e | ⟨r, e⟩⟩ := macOperands_outcomes i z m n use s <;> rw [e]
  · exact huse x y _ rfl
  · exact h
  · exact h

theorem returnFromException_controls (i : Instr) (h : P s.controls)
    (hsr : ∀ v, P { s.controls with sr := StatusReg.ofWord v }) :
    (returnFromException i s).All (P ·.controls) := by
  obtain ⟨p, c, target, sr, -, e | e | ⟨r, e⟩⟩ := returnFromException_outcomes i s <;> rw [e]
  · exact hsr sr
  · exact h
  · exact h

end

/-! ### Which of them a form may write -/

/-- From `c` to `d` the instruction `i` writes a flag or a register only if it is of the forms listed for
it (10_state.md R33 to R41). -/
structure WritesListed (i : Instr) (c d : Controls) : Prop where
  flagT : writesT i = false → d.sr.t = c.sr.t
  flagS : loadsSr i = false → d.sr.s = c.sr.s
  mask  : loadsSr i = false → d.sr.i = c.sr.i
  flagM : loadsSr i = false → i ≠ .div0u → (∀ m n, i ≠ .div0s m n) → d.sr.m = c.sr.m
  flagQ : loadsSr i = false → i ≠ .div0u → (∀ m n, i ≠ .div0s m n ∧ i ≠ .div1 m n) → d.sr.q = c.sr.q
  pr    : writesPr i = false → d.pr = c.pr
  gbr   : writesGbr i = false → d.gbr = c.gbr
  vbr   : writesVbr i = false → d.vbr = c.vbr
  mach  : writesMach i = false → d.mach = c.mach
  macl  : writesMacl i = false → d.macl = c.macl

namespace WritesListed

variable {i : Instr} {c : Controls}

theorem refl (i : Instr) (c : Controls) : WritesListed i c c := by
  constructor <;> intros <;> rfl

theorem setT (h : writesT i = true) (b : Bool) :
    WritesListed i c { c with sr := { c.sr with t := b } } :=
  { refl i c with flagT := by simp [h] }

theorem setSr (h : loadsSr i = true) (ht : writesT i = true) (r : StatusReg) :
    WritesListed i c { c with sr := r } :=
  { refl i c with
    flagT := by simp [ht], flagS := by simp [h], mask := by simp [h], flagM := by simp [h]
    flagQ := by simp [h] }

theorem setPr (h : writesPr i = true) (v : Word) : WritesListed i c { c with pr := v } :=
  { refl i c with pr := by simp [h] }

theorem setGbr (h : writesGbr i = true) (v : Word) : WritesListed i c { c with gbr := v } :=
  { refl i c with gbr := by simp [h] }

theorem setVbr (h : writesVbr i = true) (v : Word) : WritesListed i c { c with vbr := v } :=
  { refl i c with vbr := by simp [h] }

theorem setMach (h : writesMach i = true) (v : Word) : WritesListed i c { c with mach := v } :=
  { refl i c with mach := by simp [h] }

theorem setMacl (h : writesMacl i = true) (v : Word) : WritesListed i c { c with macl := v } :=
  { refl i c with macl := by simp [h] }

theorem setAccumulator (hh : writesMach i = true) (hl : writesMacl i = true) (v w : Word) :
    WritesListed i c { c with mach := v, macl := w } :=
  { refl i c with mach := by simp [hh], macl := by simp [hl] }

/-- DIV1 writes Q and T, and M stays (10_state.md R38, R39). -/
theorem div1 (m n : Reg) (q t : Bool) :
    WritesListed (.div1 m n) c { c with sr := { c.sr with q := q, t := t } } :=
  { refl _ c with
    flagT := (setT (c := c) rfl t).flagT
    flagQ := fun _ _ h => absurd rfl (h m n).2 }

theorem div0s (m n : Reg) (a q t : Bool) :
    WritesListed (.div0s m n) c { c with sr := { c.sr with m := a, q := q, t := t } } :=
  { refl _ c with
    flagT := (setT (c := c) rfl t).flagT
    flagM := fun _ _ h => absurd rfl (h m n)
    flagQ := fun _ _ h => absurd rfl (h m n).1 }

theorem div0u (a q t : Bool) :
    WritesListed .div0u c { c with sr := { c.sr with m := a, q := q, t := t } } :=
  { refl _ c with
    flagT := (setT (c := c) rfl t).flagT
    flagM := fun _ h => absurd rfl h
    flagQ := fun _ h => absurd rfl h }

end WritesListed

/-! ### Every instruction -/

/-- The accumulation of MAC.W writes the accumulator alone, whichever of its parts (41_arithmetic.md
R228). -/
theorem macWord_controls (x y : Half) (s : State) :
    ∃ v w, (macWord x y s).controls = { s.controls with mach := v, macl := w } := by
  unfold macWord
  split
  · dsimp only
    split
    · exact ⟨_, _, rfl⟩
    · exact ⟨_, _, rfl⟩
  · exact ⟨_, _, rfl⟩

theorem execTstB_writesListed (imm : BitVec 8) (s : State) :
    (execTstB imm s).All (WritesListed (.tstB imm) s.controls ·.controls) := by
  unfold execTstB
  rw [dataRead_aligned rfl]
  exact .setT rfl _

theorem execSleep_writesListed (s : State) :
    (execSleep s).All (WritesListed .sleep s.controls ·.controls) := by
  unfold execSleep
  split
  · exact done_controls _ (.refl _ _)
  · exact takenBranch_controls _ _ (.refl _ _)

/-- TRAPA keeps the mask (45_system.md R342). -/
theorem execTrapa_writesListed (imm : BitVec 8) (s : State) :
    (execTrapa imm s).All (WritesListed (.trapa imm) s.controls ·.controls) := by
  refine slotGuard_controls (.refl _ _) ?_
  obtain ⟨p, c, target, -, e | ⟨r, e⟩ | e⟩ := enterException_outcomes imm none s <;> rw [e]
  · exact .refl _ _
  · exact .refl _ _
  · trivial

/-- Whatever an instruction answers, it has written a flag, or a control or system register, only if it is
of the forms listed for it. -/
theorem exec_writesListed (i : Instr) (s : State) :
    Answer.All (WritesListed i s.controls ·.controls) (exec i s) := by
  have kept := WritesListed.refl i s.controls
  cases i with
  -- general registers alone; `.byte` is named, since an access always aligned unfolds further
  | movImm | mov | mova | movt | swapB | swapW | xtrct | add | addImm | extsB | extsW | extuB | extuW
  | neg | sub | and | andImm | not | or | orImm | xor | xorImm | shll2 | shlr2 | shll8 | shlr8 | shll16
  | shlr16 | nop | stcSr | stcGbr | stcVbr | stsMach | stsMacl | stsPr =>
    exact done_controls _ kept
  | movBLoad | movBLoadDisp | movBLoadIdx | movBLoadGbr => exact loadReg_controls _ .byte _ _ kept
  | movWPc | movLPc | movWLoad | movLLoad | movWLoadDisp | movLLoadDisp | movWLoadIdx | movLLoadIdx
  | movWLoadGbr | movLLoadGbr =>
    exact loadReg_controls _ _ _ _ kept
  | movBPostInc => exact popReg_controls _ .byte _ _ kept
  | movWPostInc | movLPostInc => exact popReg_controls _ _ _ _ kept
  -- memory alone
  | movBStore | movWStore | movLStore | movBStoreDisp | movWStoreDisp | movLStoreDisp | movBStoreIdx
  | movWStoreIdx | movLStoreIdx | movBStoreGbr | movWStoreGbr | movLStoreGbr =>
    exact storeValue_controls _ _ _ _ kept
  | movBPreDec | movWPreDec | movLPreDec | stcLSr | stcLGbr | stcLVbr | stsLMach | stsLMacl | stsLPr =>
    exact pushValue_controls _ _ _ _ kept
  | andB | orB | xorB => exact modifyGbr_controls _ _ kept
  -- T
  | addc | addv | cmpEqImm | cmpEq | cmpHs | cmpGe | cmpHi | cmpGt | cmpPz | cmpPl | cmpStr | dt | negc
  | subc | subv | tst | tstImm | rotl | rotr | rotcl | rotcr | shal | shar | shll | shlr | clrt | sett =>
    exact done_controls _ (.setT rfl _)
  | tas n =>
    exact modifyByte_controls (flags := fun v s => s.setT (v == 0)) _ _ _ kept fun v t e =>
      e ▸ .setT (c := t.controls) rfl _
  | tstB imm => exact execTstB_writesListed imm s
  -- Q and M
  | div1 m n => exact done_controls _ (.div1 m n _ _)
  | div0s m n => exact done_controls _ (.div0s m n _ _ _)
  | div0u => exact done_controls _ (.div0u _ _ _)
  -- the accumulator
  | mulL | mulsW | muluW | ldsMacl => exact done_controls _ (.setMacl rfl _)
  | dmulsL | dmuluL | clrmac => exact done_controls _ (.setAccumulator rfl rfl _ _)
  | ldsMach => exact done_controls _ (.setMach rfl _)
  | macL m n =>
    refine macOperands_controls (use := fun x y s => s.setMac (macLSum s.sr.s s.mac x y)) _ _ _ _ kept
      fun x y t e => ?_
    exact e ▸ .setAccumulator (c := t.controls) rfl rfl _ _
  | macW m n =>
    refine macOperands_controls _ _ _ _ kept fun x y t e => ?_
    obtain ⟨v, w, h⟩ := macWord_controls (lowHalf x) (lowHalf y) t
    rw [h, e]
    exact .setAccumulator rfl rfl v w
  -- branches
  | bf | bt =>
    exact conditionalBranch_controls kept (takenBranch_controls _ _ kept) (done_controls _ kept)
  | bfS | btS =>
    exact conditionalBranch_controls kept (delayedBranch_controls _ _ kept) (done_controls _ kept)
  | bra | braf | jmp | rts => exact slotGuard_controls kept (delayedBranch_controls _ _ kept)
  | bsr | bsrf | jsr => exact slotGuard_controls kept (delayedBranch_controls _ _ (.setPr rfl _))
  -- control and system registers
  | ldcSr => exact done_controls _ (.setSr rfl rfl _)
  | ldcGbr => exact done_controls _ (.setGbr rfl _)
  | ldcVbr => exact done_controls _ (.setVbr rfl _)
  | ldsPr => exact done_controls _ (.setPr rfl _)
  | ldcLSr => exact popControl_controls _ _ kept fun v t e => e ▸ .setSr rfl rfl _
  | ldcLGbr => exact popControl_controls _ _ kept fun v t e => e ▸ .setGbr rfl _
  | ldcLVbr => exact popControl_controls _ _ kept fun v t e => e ▸ .setVbr rfl _
  | ldsLMach => exact popControl_controls _ _ kept fun v t e => e ▸ .setMach rfl _
  | ldsLMacl => exact popControl_controls _ _ kept fun v t e => e ▸ .setMacl rfl _
  | ldsLPr => exact popControl_controls _ _ kept fun v t e => e ▸ .setPr rfl _
  -- exceptions and sleep
  | rte =>
    exact slotGuard_controls kept (returnFromException_controls _ kept fun v => .setSr rfl rfl _)
  | trapa imm => exact execTrapa_writesListed imm s
  | sleep => exact execSleep_writesListed s

end Sys2Proof.Machine

open Sys2Proof.Machine in
/-- Settles O25, from what every instruction writes on every outcome (`exec_writesListed`). -/
theorem onlyListedFormsWriteFlagsAndSystemRegisters :
    Obligations.OnlyListedFormsWriteFlagsAndSystemRegisters := by
  intro i s t ht
  have h := exec_writesListed i s
  rw [ht] at h
  exact ⟨h.flagT, fun hs => ⟨h.flagS hs, h.mask hs⟩, h.flagM, h.flagQ, h.pr, h.gbr, h.vbr, h.mach, h.macl⟩

end

section
/-! PROOFS of the family 10_state.md. A cycle of a faulted CPU: each of its parts leaves the state it found
with another platform, on which the clock alone is advanced. -/

namespace Sys2Proof.Machine

open Sys2Proof.Claims

/-- `t` is `s` but for a platform of the same time. -/
def State.OnlyPlatform (s t : State) : Prop := ∃ p : Platform, p.now = s.plat.now ∧ t = s.setPlat p

theorem State.OnlyPlatform.setPlat {s : State} {p : Platform} (h : p.now = s.plat.now) :
    s.OnlyPlatform (s.setPlat p) := ⟨p, h, rfl⟩

theorem State.OnlyPlatform.refl (s : State) : s.OnlyPlatform s := setPlat (p := s.plat) rfl

theorem State.OnlyPlatform.trans {s t u : State} (h : s.OnlyPlatform t) (h' : t.OnlyPlatform u) :
    s.OnlyPlatform u := by
  obtain ⟨p, hp, rfl⟩ := h
  obtain ⟨q, hq, rfl⟩ := h'
  exact ⟨q, hq.trans hp, rfl⟩

theorem State.OnlyPlatform.fault_eq {s t : State} (h : s.OnlyPlatform t) : t.fault = s.fault := by
  obtain ⟨p, -, rfl⟩ := h
  rfl

/-- A faulted CPU takes no request (60_exceptions.md R354). -/
theorem assertIrq_faulted {s : State} (r : IrqRequest) (h : s.fault.isSome = true) :
    assertIrq r s = s := by
  simp [assertIrq, h]

/-- A faulted CPU keeps its first fault (60_exceptions.md R365). -/
theorem fail_faulted {s : State} (r : Option FaultReason) (h : s.fault.isSome = true) :
    s.fail r = s := by
  cases r with
  | none => rfl
  | some r => simp [State.fail, h]

theorem applyEnvAction_faulted {s : State} (a : EnvAction) (h : s.fault.isSome = true) :
    s.OnlyPlatform (applyEnvAction s a) := by
  cases a with
  | raise source =>
    have hs : applyEnvAction s (.raise source) = s := by
      simp [applyEnvAction, assertIrq_faulted _ h]
    exact hs.symm ▸ .refl s
  | addHook g => exact State.OnlyPlatform.setPlat rfl
  | removeHook a => exact State.OnlyPlatform.setPlat rfl

theorem applyEnvActions_faulted (l : List (Nat × EnvAction)) {s : State}
    (h : s.fault.isSome = true) :
    s.OnlyPlatform (l.foldl (fun s e => applyEnvAction s e.2) s) := by
  induction l generalizing s with
  | nil => exact .refl s
  | cons e l ih =>
    have he := applyEnvAction_faulted e.2 h
    exact he.trans (ih (he.fault_eq ▸ h))

theorem environmentStage_faulted {s : State} (h : s.fault.isSome = true) :
    s.OnlyPlatform (environmentStage s) := by
  unfold environmentStage
  refine State.OnlyPlatform.trans (.setPlat ?_) (applyEnvActions_faulted _ h)
  rfl

/-- The scheduler's part never ends exactly where its firing pass never ends. -/
theorem schedulerStage_eq_none (s : State) : schedulerStage s = none ↔ fireDue s.plat = none := by
  simp [schedulerStage]

theorem schedulerStage_faulted {s t : State} (h : s.fault.isSome = true)
    (ht : schedulerStage s = some t) : s.OnlyPlatform t := by
  obtain ⟨⟨p, r⟩, hp, rfl⟩ := Option.map_eq_some_iff.1 ht
  have hf := fireDue_follows s.plat
  rw [hp] at hf
  exact ⟨p, hf.now, fail_faulted (s := s.setPlat p) r h⟩

/-- After the CPU's part, a cycle of a faulted CPU changes the platform alone, and its time is one
later. -/
theorem endCycle_faulted {s u : State} (h : s.fault.isSome = true) (hu : endCycle s = some u) :
    ∃ p : Platform, p.now = s.plat.now + 1 ∧ u = s.setPlat p := by
  obtain ⟨t, ht, rfl⟩ := Option.map_eq_some_iff.1 hu
  have hst := schedulerStage_faulted h ht
  obtain ⟨p, hp, e⟩ := hst.trans (environmentStage_faulted (hst.fault_eq ▸ h))
  rw [e]
  exact ⟨{ p with now := p.now + 1 }, congrArg (· + 1) hp, rfl⟩

theorem endCycle_eq_none (s : State) : endCycle s = none ↔ fireDue s.plat = none := by
  rw [endCycle, Option.map_eq_none_iff, schedulerStage_eq_none]

/-- A faulted CPU has no part in its cycle (60_exceptions.md R354, R409). -/
theorem step_faulted {s : State} (h : s.fault.isSome = true) : step s = closeCycle s.fault s := by
  have ht : tick s = s := by simp [tick, h]
  have hr : s.ready = false := by simp [State.ready, Option.isNone_eq_false_iff.2 h]
  simp [step, cycle, ht, hr]

/-- The cycle of a CPU that had faulted before answers the state at its end. -/
theorem closeCycle_faulted {before : Option FaultRecord} {s u : State} (h : before.isSome = true)
    (hu : endCycle s = some u) : closeCycle before s = .next u := by
  obtain ⟨r, rfl⟩ := Option.isSome_iff_exists.1 h
  simp [closeCycle, hu]

/-- Another platform leaves all of the CPU. -/
theorem cpuFrame_setPlat (s : State) (p : Platform) : CpuFrame [] s (s.setPlat p) := by
  intro x _ hx
  cases x with
  | byte | draws | envWrites | devices => cases hx
  | current => exact ⟨rfl, rfl⟩
  | _ => rfl

end Sys2Proof.Machine

open Sys2Proof.Machine in
/-- Settles O15, by whether the scheduler's part of the cycle ends. -/
theorem faultedCpuStays : Obligations.FaultedCpuStays := by
  intro s h
  rw [step_faulted h]
  cases hu : endCycle s with
  | none => exact .inr ⟨(endCycle_eq_none s).1 hu, by simp [closeCycle, hu]⟩
  | some u =>
    obtain ⟨p, hp, rfl⟩ := endCycle_faulted h hu
    exact .inl ⟨_, closeCycle_faulted h hu, cpuFrame_setPlat s p, hp⟩

end

section
/-! PROOFS of the family 20_memory.md. The bus and the page table: address translation as arithmetic, unmapped
accesses, the bytes a buffer access reads and stores, and the table a memory map builds. -/

namespace Sys2Proof.Machine

open Sys2Proof.Claims

/-! ### Address translation -/

/-- The region test of `translate` reads bits 27:24 (20_memory.md R71). -/
theorem onchipBits_iff (a : Word) : a.extractLsb' 24 4 = 0xF#4 ↔ a.toNat / 2 ^ 24 % 16 = 15 := by
  rw [← BitVec.toNat_inj, BitVec.extractLsb'_toNat, Nat.shiftRight_eq_div_pow]
  rfl

/-- Keeping the low `n` bits is the remainder by `2 ^ n`. -/
theorem and_lowMask_toNat (a : Word) {mask : Word} (n : Nat) (h : mask.toNat = 2 ^ n - 1) :
    (a &&& mask).toNat = a.toNat % 2 ^ n := by
  rw [BitVec.toNat_and, h, Nat.and_two_pow_sub_one_eq_mod]

/-- The region test and the mask of each region, as numbers. -/
theorem translate_toNat (a : Word) :
    (translate a).toNat =
      if a.toNat / 2 ^ 24 % 16 = 15 then a.toNat % 2 ^ 28 else a.toNat % 2 ^ 27 := by
  simp only [translate, onchipBits_iff]
  split
  · exact and_lowMask_toNat a 28 rfl
  · exact and_lowMask_toNat a 27 rfl

/-! ### Unmapped accesses -/

theorem joinBytes_zeros (n : Nat) : joinBytes (List.replicate n 0x00) = 0 := by
  induction n with
  | zero => rfl
  | succ n ih => exact ih

theorem read_of_unmapped {p : Platform} {a : Word} (z : Size)
    (h : p.target (physical a) = .unmapped) : p.read z a = (0, p) := by
  simp only [Platform.read, Platform.readBytes, h, joinBytes_zeros]

theorem writeWith_of_unmapped {p : Platform} {a : Word} (check : Platform → Io) (z : Size) (v : Word)
    (h : p.target (physical a) = .unmapped) : p.writeWith check z a v = .ok p := by
  simp [Platform.writeWith, h]

/-! ### Buffer accesses -/

/-- The bytes of the buffers decide no address's owner. -/
theorem Platform.target_withMem {p : Platform} (m : Memory) (t : Nat) :
    { p with mem := m }.target t = p.target t :=
  Platform.target_congr rfl rfl t

/-- The place of an address is its page-table entry's. -/
theorem place_eq {p : Platform} {a : Word} {e : PageEntry}
    (h : p.target (physical a) = .buffer e) : place p a = e.place (physical a) := by
  rw [place, Platform.target_buffer.1 h]
  rfl

/-- The value read from a buffer is made of the bytes from the address's place up. -/
theorem read_buffer {p : Platform} {a : Word} {e : PageEntry} (z : Size)
    (h : p.target (physical a) = .buffer e) :
    p.read z a = (joinBytes ((List.range z.bytes).map fun k => byteAt p (place p a + k)), p) := by
  rw [read_of_buffer z h, place_eq h]
  rfl

/-- A write to a page that may be written stores bytes from the address's place up. -/
theorem write_writable {p : Platform} {a : Word} (z : Size) (v : Word) (h : Writable p a) :
    p.write z a v =
      .ok { p with mem := p.mem.writeBytes p.pageTable (place p a) (splitBytes z.bytes v) } := by
  obtain ⟨e, he, hw⟩ := h
  rw [place_eq he]
  exact writeWith_of_writable checkActivations z v he hw

/-- The bytes after storing some from the place `lo` up. -/
theorem byteAt_writeBytes {p : Platform} (hp : Canonical p) (lo : Nat) (bs : List Byte) (k : Nat) :
    byteAt { p with mem := p.mem.writeBytes p.pageTable lo bs } k =
      if lo ≤ k ∧ k < lo + bs.length then bs.getD (k - lo) 0 else byteAt p k :=
  Memory.read_writeBytes hp

/-- The bytes stored by `splitBytes` hold the value. -/
theorem holds_writeBytes {p : Platform} (hp : Canonical p) (lo n : Nat) (v : Word) :
    Holds { p with mem := p.mem.writeBytes p.pageTable lo (splitBytes n v) } lo n v := by
  intro k hk
  rw [byteAt_writeBytes hp, splitBytes_length, if_pos ⟨by omega, by omega⟩, Nat.add_sub_cancel_left,
    splitBytes_getD v hk]

/-- A byte stored through one address is read through every other address of the same place
(20_memory.md R83). -/
theorem read_byte_of_write {p q : Platform} {a a' v : Word} {e : PageEntry} (hp : Canonical p)
    (hw : Writable p a) (he : p.target (physical a') = .buffer e) (hplace : place p a' = place p a)
    (hq : p.write .byte a v = .ok q) : (q.read .byte a').1.toNat = v.toNat % 256 := by
  rw [write_writable .byte v hw] at hq
  cases hq
  rw [read_buffer .byte ((Platform.target_withMem _ _).trans he)]
  refine (joinBytes_one _).trans ?_
  change (byteAt _ (place p a' + 0)).toNat = _
  rw [hplace]
  exact (holds_writeBytes hp (place p a) 1 v 0 Nat.one_pos).trans (by simp)

/-- A place at which nothing is stored reads as unlisted. -/
theorem Memory.read_of_not_mem {m : Memory} {k : Nat} (h : ∀ b, (k, b) ∉ m) (x : Byte) :
    m.read x k = x := by
  induction m with
  | nil => rfl
  | cons c m ih =>
    obtain ⟨j, b⟩ := c
    have hj : j ≠ k := fun e => h b (e ▸ List.mem_cons_self)
    rw [Memory.read, if_neg hj, ih fun b hb => h b (List.mem_cons_of_mem _ hb), ite_self]

/-- A place in the padding of the buffers that hold it is unlisted as 0xFF (20_memory.md R82). -/
theorem unlisted_padding {pt : PageTable} {k : Nat} (h : ∃ e ∈ pt, bufferHolds e.buffer k = true)
    (hpad : ∀ e ∈ pt, bufferHolds e.buffer k = true → 4096 * e.buffer.page + e.buffer.size ≤ k) :
    pt.unlisted k = 0xFF := by
  obtain ⟨e, he⟩ := Option.isSome_iff_exists.1 (List.find?_isSome.2 h)
  have hk := hpad e (List.mem_of_find?_eq_some he)
    (List.find?_some (p := fun e : PageEntry => bufferHolds e.buffer k) he)
  simp only [PageTable.unlisted, he]
  exact if_neg (Nat.not_lt.2 hk)

/-! ### The page table of a memory map -/

/-- The number of the page an offset of a size lies in is one of the size's pages. -/
theorem lt_pagesOf_iff {i size : Nat} : i < pagesOf size ↔ 4096 * i < size := by
  unfold pagesOf pageSize
  omega

/-- An entry of a region is that of one of its buffer's pages (20_memory.md R80, log entry 27). -/
theorem mem_regionPages {r : Region} {e : PageEntry} (h : e ∈ regionPages r) :
    ∃ kind b i, r.kind = .buffer kind b ∧ e.page = r.base / 4096 + i ∧ i < pagesOf r.size := by
  unfold regionPages at h
  split at h
  · cases h
  · next kind b hr =>
    obtain ⟨i, hi, rfl⟩ := List.mem_map.1 h
    exact ⟨kind, b, i, hr, rfl, (List.mem_range.1 hi).trans_le (min_le_left _ _)⟩

/-- A page outside the pages of a region has no entry in it. -/
theorem lookup_regionPages_none {r : Region} {t : Nat}
    (h : ∀ kind b, r.kind = .buffer kind b →
      t / 4096 < r.base / 4096 ∨ r.base / 4096 + pagesOf r.size ≤ t / 4096) :
    PageTable.lookup (regionPages r) t = none := by
  refine List.find?_eq_none.2 fun e he ht => ?_
  obtain ⟨kind, b, i, hr, hpage, hi⟩ := mem_regionPages he
  have ht : e.page = t / 4096 := beq_iff_eq.1 ht
  have := h kind b hr
  omega

/-- Page `i` of a buffer region points to page `i` of its buffer. -/
theorem lookup_regionPages {r : Region} {kind : BufferKind} {b : Buffer} {i t : Nat}
    (hr : r.kind = .buffer kind b) (hi : i < pagesOf r.size) (hb : i < pagesOf b.size)
    (ht : t / 4096 = r.base / 4096 + i) :
    PageTable.lookup (regionPages r) t =
      some { page := r.base / 4096 + i, buffer := b, index := i, kind := kind, cost := r.cost } := by
  have hn : i < min (pagesOf r.size) (pagesOf b.size) := lt_min hi hb
  have hfind : (List.range (min (pagesOf r.size) (pagesOf b.size))).find?
      (fun j => r.base / pageSize + j == t / pageSize) = some i := by
    refine List.find?_range_eq_some.2 ⟨?_, List.mem_range.2 hn, fun j hj => ?_⟩
    · simp [pageSize, ht]
    · simp [pageSize, ht]; omega
  simp only [regionPages, hr, PageTable.lookup, List.find?_map]
  exact congrArg (Option.map _) hfind

/-- The first region of a map that claims a page gives its entry (log entry 27). -/
theorem lookup_buildPageTable {before after : List Region} {r : Region} {t : Nat} {e : PageEntry}
    (hbefore : ∀ r' ∈ before, PageTable.lookup (regionPages r') t = none)
    (hr : PageTable.lookup (regionPages r) t = some e) :
    (buildPageTable (before ++ r :: after)).lookup t = some e := by
  have hnone : PageTable.lookup (before.flatMap regionPages) t = none :=
    List.find?_eq_none.2 fun e he => by
      obtain ⟨r', hr', he⟩ := List.mem_flatMap.1 he
      exact List.find?_eq_none.1 (hbefore r' hr') e he
  have hsplit : buildPageTable (before ++ r :: after) =
      before.flatMap regionPages ++ (regionPages r ++ after.flatMap regionPages) := by
    simp [buildPageTable]
  rw [hsplit]
  simp only [PageTable.lookup, List.find?_append] at *
  rw [hnone, hr]
  rfl

theorem PageEntry.writable_iff (e : PageEntry) :
    e.writable = true ↔ e.kind ≠ .bios ∧ e.kind ≠ .cartRom := by
  unfold PageEntry.writable
  cases e.kind <;> simp

end Sys2Proof.Machine

open Sys2Proof.Machine in
/-- Settles O47. -/
theorem addressTranslation : Obligations.AddressTranslation := translate_toNat

open Sys2Proof.Machine in
/-- Settles O50. -/
theorem unmappedAccess : Obligations.UnmappedAccess :=
  fun _ z _ v h => ⟨read_of_unmapped z h, writeWith_of_unmapped checkActivations z v h⟩

open Sys2Proof.Machine in
/-- Settles O48, by the bytes that `joinBytes` is given for each width, and by what every place holds after
`writeBytes`. -/
theorem bufferAccessIsBigEndian : Obligations.BufferAccessIsBigEndian := by
  constructor
  · intro p a e h
    refine ⟨?_, ?_, ?_, fun z => by rw [read_buffer z h]⟩ <;> rw [read_buffer _ h]
    · exact joinBytes_one _
    · exact joinBytes_two _ _
    · exact joinBytes_four _ _ _ _
  · intro p z a v hp hw
    refine ⟨_, write_writable z v hw, Memory.writeBytes_wf hp, holds_writeBytes hp _ _ v, ?_, rfl⟩
    intro k hk
    rw [byteAt_writeBytes hp, splitBytes_length, if_neg (by omega)]

open Sys2Proof.Machine in
/-- Settles O49: the entry of a page from the first region that claims it, sharing from the one byte at a
place, and the padding from what an unlisted place reads as. -/
theorem mapPlacesBuffers : Obligations.MapPlacesBuffers := by
  refine ⟨?entry, ?shared, ?padding⟩
  case entry =>
    intro before after r kind b i k hr hi hb hk hbefore
    have ht : (4096 * (r.base / 4096 + i) + k) / 4096 = r.base / 4096 + i := by omega
    refine ⟨_, lookup_buildPageTable (fun r' hr' => lookup_regionPages_none fun kind' b' hk' => ?_)
      (lookup_regionPages hr (lt_pagesOf_iff.2 hi) (lt_pagesOf_iff.2 hb) ht), rfl, rfl, rfl, rfl, ?_,
      PageEntry.writable_iff _⟩
    · rw [ht]
      exact hbefore r' hr' kind' b' hk'
    · simp only [PageEntry.place, PageEntry.base, pageSize]
      omega
  case shared =>
    rintro p q a a' v hp hw ⟨e, he⟩ hplace hq
    exact read_byte_of_write hp hw he hplace hq
  case padding =>
    intro p k hfree hheld hpad
    exact (Memory.read_of_not_mem hfree _).trans (unlisted_padding hheld hpad)

end

section
/-! PROOFS of the family 20_memory.md. Accesses that are not performed: which shared operation every
accessing form is, with its address as arithmetic, and how that operation ends where its access is
misaligned or meets a BIOS or ROM page; then the units of the DMA controller. -/

namespace Sys2Proof.Machine

open Sys2Proof.Claims

/-! ### Effective addresses as arithmetic -/

theorem eaDisp4_eq (z : Size) (base : Word) (d : BitVec 4) :
    eaDisp4 z base d = BitVec.ofNat 32 (base.toNat + z.bytes * d.toNat) := by
  cases z <;> simp only [eaDisp4, Size.scale, Size.bytes] <;> bv_omega

theorem eaDisp8_eq (z : Size) (base : Word) (d : BitVec 8) :
    eaDisp8 z base d = BitVec.ofNat 32 (base.toNat + z.bytes * d.toNat) := by
  cases z <;> simp only [eaDisp8, Size.scale, Size.bytes] <;> bv_omega

theorem eaIndexed_eq (base index : Word) :
    eaIndexed base index = BitVec.ofNat 32 (base.toNat + index.toNat) := by
  unfold eaIndexed
  bv_omega

theorem eaPcWord_eq (pc : Word) (d : BitVec 8) :
    eaPcWord pc d = BitVec.ofNat 32 (pc.toNat + 2 * d.toNat) := by
  unfold eaPcWord
  bv_omega

/-- Clearing the low two bits rounds down to a multiple of 4. -/
theorem and_clearLowTwo (pc : Word) :
    pc &&& (0xFFFFFFFC : Word) = BitVec.ofNat 32 (pc.toNat / 4 * 4) := by
  have hmask : ∀ i < 32, (0xFFFFFFFC : Word).getLsbD i = !decide (i < 2) := by decide
  have hshift : pc &&& (0xFFFFFFFC : Word) = (pc >>> 2) <<< 2 := by
    refine BitVec.eq_of_getLsbD_eq fun i hi => ?_
    rw [BitVec.getLsbD_and, hmask i hi, BitVec.getLsbD_shiftLeft, BitVec.getLsbD_ushiftRight]
    by_cases h : i < 2
    · simp [h]
    · simp [h, hi, show 2 + (i - 2) = i by omega]
  rw [hshift, ← BitVec.toNat_inj, BitVec.toNat_shiftLeft, BitVec.toNat_ushiftRight, Nat.shiftLeft_eq,
    Nat.shiftRight_eq_div_pow, BitVec.toNat_ofNat]

theorem eaPcLong_eq (pc : Word) (d : BitVec 8) :
    eaPcLong pc d = BitVec.ofNat 32 (pc.toNat / 4 * 4 + 4 * d.toNat) := by
  rw [eaPcLong, and_clearLowTwo]
  bv_omega

theorem eaPreDec_eq (z : Size) (base : Word) : eaPreDec z base = decremented z base := by
  cases z <;> simp only [eaPreDec, decremented, Size.scale, Size.bytes] <;> bv_omega

/-! ### The shared operation of every accessing form -/

theorem exec_of_loadOf {s : State} {i : Instr} {z : Size} {a : Word} {n : Reg}
    (h : loadOf s i = some (z, a, n)) : exec i s = loadReg i z a n s := by
  cases i with
  | movBLoad | movWLoad | movLLoad => cases h; rfl
  | movWPc => cases h; rw [← eaPcWord_eq]; rfl
  | movLPc => cases h; rw [← eaPcLong_eq]; rfl
  | movBLoadIdx | movWLoadIdx | movLLoadIdx => cases h; rw [← eaIndexed_eq]; rfl
  | movBLoadDisp | movWLoadDisp | movLLoadDisp =>
    cases h
    simp only [exec, execMovBLoadDisp, execMovWLoadDisp, execMovLLoadDisp, eaDisp4_eq, Size.bytes,
      Nat.one_mul]
  | movBLoadGbr | movWLoadGbr | movLLoadGbr =>
    cases h
    simp only [exec, execMovBLoadGbr, execMovWLoadGbr, execMovLLoadGbr, eaDisp8_eq, Size.bytes,
      Nat.one_mul]
  | _ => cases h

theorem exec_of_popOf {s : State} {i : Instr} {z : Size} {m n : Reg}
    (h : popOf i = some (z, m, n)) : exec i s = popReg i z m n s := by
  cases i with
  | movBPostInc | movWPostInc | movLPostInc => cases h; rfl
  | _ => cases h

theorem exec_of_storeOf {s : State} {i : Instr} {z : Size} {a v : Word}
    (h : storeOf s i = some (z, a, v)) : exec i s = storeValue i z a v s := by
  cases i with
  | movBStore | movWStore | movLStore => cases h; rfl
  | movBStoreIdx | movWStoreIdx | movLStoreIdx => cases h; rw [← eaIndexed_eq]; rfl
  | movBStoreDisp | movWStoreDisp | movLStoreDisp =>
    cases h
    simp only [exec, execMovBStoreDisp, execMovWStoreDisp, execMovLStoreDisp, eaDisp4_eq, Size.bytes,
      Nat.one_mul]
  | movBStoreGbr | movWStoreGbr | movLStoreGbr =>
    cases h
    simp only [exec, execMovBStoreGbr, execMovWStoreGbr, execMovLStoreGbr, eaDisp8_eq, Size.bytes,
      Nat.one_mul]
  | _ => cases h

theorem exec_of_pushOf {s : State} {i : Instr} {z : Size} {n : Reg} {v : Word}
    (h : pushOf s i = some (z, n, v)) : exec i s = pushValue i z v n s := by
  cases i with
  | movBPreDec | movWPreDec | movLPreDec | stcLSr | stcLGbr | stcLVbr | stsLMach | stsLMacl | stsLPr =>
    cases h; rfl
  | _ => cases h

/-- A read-modify-write of a byte, as the operation that every such form is. -/
theorem exec_of_modifyOf {s : State} {i : Instr} {a : Word} {f : Byte → Byte} {g : Byte → Bool}
    (h : modifyOf s i = some (a, f, g)) : ∃ F flags, exec i s = modifyByte i a F flags s := by
  cases i with
  | andB | orB | xorB => cases h; rw [← eaIndexed_eq]; exact ⟨_, _, rfl⟩
  | tas => cases h; exact ⟨_, _, rfl⟩
  | _ => cases h

/-- MAC.L and MAC.W, as the operation that both are. -/
theorem exec_mac {i : Instr} {z : Size} {m n : Reg} (s : State)
    (h : i = .macL m n ∧ z = .long ∨ i = .macW m n ∧ z = .word) :
    ∃ use, exec i s = macOperands i z m n use s := by
  obtain ⟨rfl, rfl⟩ | ⟨rfl, rfl⟩ := h
  · exact ⟨fun x y s => s.setMac (macLSum s.sr.s s.mac x y), rfl⟩
  · exact ⟨fun x y s => macWord (lowHalf x) (lowHalf y) s, rfl⟩

/-! ### A misaligned access -/

/-- How an instruction that meets a misaligned access ends in `s` (20_memory.md R75, 60_exceptions.md
R362). No slot opens, so every instruction ends alike (`finish_misaligned`), and `NOP` stands for any. -/
def State.endMisaligned (s : State) (a : Word) (z : Size) : Answer :=
  finish .nop false (s.misaligned a z)

theorem endMisaligned_fault {s : State} (a : Word) (z : Size)
    (h : s.plat.params.misalignedPolicy = .fault) :
    s.endMisaligned a z = s.stop { reason := .misaligned a z.bytes, at_ := s.curAddr } := by
  simp [State.endMisaligned, State.misaligned, h]

theorem endMisaligned_addressError {s : State} (a : Word) (z : Size)
    (h : s.plat.params.misalignedPolicy = .addressError) :
    s.endMisaligned a z = .next s.abandon := by
  simp [State.endMisaligned, State.misaligned, h]

theorem finish_misaligned (i : Instr) (delayed : Bool) (s : State) (a : Word) (z : Size) :
    finish i delayed (s.misaligned a z) = s.endMisaligned a z := by
  unfold State.endMisaligned State.misaligned
  split <;> rfl

/-- Nothing follows a misaligned access. -/
theorem misaligned_bind {α β : Type} (s : State) (a : Word) (z : Size) (k : α → State → Run β) :
    (s.misaligned a z).bind k = s.misaligned a z := by
  unfold State.misaligned
  split <;> rfl

theorem loadReg_misaligned (i : Instr) {z : Size} {a : Word} (n : Reg) {s : State}
    (h : z.aligned a = false) : loadReg i z a n s = s.endMisaligned a z := by
  rw [loadReg, dataRead_misaligned h, misaligned_bind, finish_misaligned]

theorem popReg_misaligned (i : Instr) {z : Size} {m : Reg} (n : Reg) {s : State}
    (h : z.aligned (s.reg m) = false) : popReg i z m n s = s.endMisaligned (s.reg m) z := by
  rw [popReg, dataRead_misaligned h, misaligned_bind, finish_misaligned]

theorem popControl_misaligned (i : Instr) {m : Reg} (put : State → Word → State) {s : State}
    (h : Size.long.aligned (s.reg m) = false) :
    popControl i m put s = s.endMisaligned (s.reg m) .long := by
  rw [popControl, dataRead_misaligned h, misaligned_bind, finish_misaligned]

theorem storeValue_misaligned (i : Instr) {z : Size} {a : Word} (v : Word) {s : State}
    (h : z.aligned a = false) : storeValue i z a v s = s.endMisaligned a z := by
  rw [storeValue, dataWrite_misaligned h, finish_misaligned]

theorem pushValue_misaligned (i : Instr) {z : Size} (v : Word) {n : Reg} {s : State}
    (h : z.aligned (eaPreDec z (s.reg n)) = false) :
    pushValue i z v n s = s.endMisaligned (eaPreDec z (s.reg n)) z := by
  rw [pushValue, dataWrite_misaligned h, misaligned_bind, finish_misaligned]

theorem returnFromException_misaligned (i : Instr) {s : State}
    (h : Size.long.aligned (s.reg 15) = false) :
    returnFromException i s = s.endMisaligned (s.reg 15) .long := by
  rw [returnFromException, dataRead_misaligned h, misaligned_bind, finish_misaligned]

theorem macOperands_misaligned_first (i : Instr) {z : Size} (m : Reg) {n : Reg}
    (use : Word → Word → State → State) {s : State} (h : z.aligned (s.reg n) = false) :
    macOperands i z m n use s = s.endMisaligned (s.reg n) z := by
  rw [macOperands, dataRead_misaligned h, misaligned_bind, finish_misaligned]

/-- The second operand misaligned: the first has been read and charged (log entry 19). -/
theorem macOperands_misaligned_second (i : Instr) {z : Size} {m n : Reg}
    (use : Word → Word → State → State) {s : State} (hn : z.aligned (s.reg n) = true)
    (hm : z.aligned (s.reg m) = false) :
    macOperands i z m n use s =
      (s.charge (s.plat.read z (s.reg n)).2 (s.plat.cost (s.reg n))).endMisaligned (s.reg m) z := by
  have hne : n ≠ m := by
    rintro rfl
    simp [hn] at hm
  rw [macOperands, dataRead_aligned hn, Run.bind_ok, if_neg hne, dataRead_misaligned hm,
    misaligned_bind, finish_misaligned]

/-- Every form ends so where its first access is misaligned. -/
theorem exec_misaligned {i : Instr} {s : State} {z : Size} {a : Word}
    (h : accessOf s i = some (z, a)) (ha : z.aligned a = false)
    (hslot : i = .rte → s.inDelaySlot = false) : exec i s = s.endMisaligned a z := by
  unfold accessOf at h
  split at h
  case h_1 hl => cases h; rw [exec_of_loadOf hl, loadReg_misaligned _ _ ha]
  case h_2 hp => cases h; rw [exec_of_popOf hp, popReg_misaligned _ _ ha]
  case h_3 hs => cases h; rw [exec_of_storeOf hs, storeValue_misaligned _ _ ha]
  case h_4 hp =>
    cases h
    rw [← eaPreDec_eq] at ha ⊢
    rw [exec_of_pushOf hp, pushValue_misaligned _ _ ha]
  case h_5 =>
    cases i with
    | ldcLSr | ldcLGbr | ldcLVbr | ldsLMach | ldsLMacl | ldsLPr =>
      cases h; exact popControl_misaligned _ _ ha
    | macL =>
      obtain ⟨use, he⟩ := exec_mac s (.inl ⟨rfl, rfl⟩)
      cases h
      exact he.trans (macOperands_misaligned_first _ _ use ha)
    | macW =>
      obtain ⟨use, he⟩ := exec_mac s (.inr ⟨rfl, rfl⟩)
      cases h
      exact he.trans (macOperands_misaligned_first _ _ use ha)
    | rte =>
      cases h
      exact (slotGuard_pass _ (hslot rfl)).trans (returnFromException_misaligned _ ha)
    | _ => cases h

/-! ### A write to a BIOS or ROM page -/

/-- The write is refused, with the platform as it was (20_memory.md R84). -/
theorem writeWith_readOnly {p : Platform} {a : Word} (check : Platform → Io) (z : Size) (v : Word)
    (h : ReadOnly p a) : p.writeWith check z a v = .raise (.romWrite a) p := by
  obtain ⟨e, he, hw⟩ := h
  exact writeWith_of_readOnly check z v he hw

theorem dataWrite_readOnly {z : Size} {a : Word} (v : Word) {s : State} (ha : z.aligned a = true)
    (h : ReadOnly s.plat a) :
    dataWrite z a v s = .raise { reason := .romWrite a, at_ := s.curAddr } s :=
  dataWrite_raise ha (writeWith_readOnly checkActivations z v h)

theorem storeValue_readOnly (i : Instr) {z : Size} {a : Word} (v : Word) {s : State}
    (ha : z.aligned a = true) (h : ReadOnly s.plat a) :
    storeValue i z a v s = s.stop { reason := .romWrite a, at_ := s.curAddr } := by
  rw [storeValue, dataWrite_readOnly v ha h, finish_raise]

theorem pushValue_readOnly (i : Instr) {z : Size} (v : Word) {n : Reg} {s : State}
    (ha : z.aligned (eaPreDec z (s.reg n)) = true) (h : ReadOnly s.plat (eaPreDec z (s.reg n))) :
    pushValue i z v n s =
      s.stop { reason := .romWrite (eaPreDec z (s.reg n)), at_ := s.curAddr } := by
  rw [pushValue, dataWrite_readOnly v ha h, Run.bind_raise, finish_raise]

/-- The byte has been read, and its cost stays charged (log entry 19). -/
theorem modifyByte_readOnly (i : Instr) {a : Word} (f : Word → Word) (flags : Word → State → State)
    {s : State} (h : ReadOnly s.plat a) :
    modifyByte i a f flags s =
      (s.charge s.plat (s.plat.cost a)).stop { reason := .romWrite a, at_ := s.curAddr } := by
  have hread : (s.plat.read .byte a).2 = s.plat := by
    obtain ⟨e, he, -⟩ := h
    rw [read_of_buffer _ he]
  rw [modifyByte, dataRead_aligned rfl, hread, Run.bind_ok,
    dataWrite_readOnly (s := s.charge s.plat (s.plat.cost a)) _ rfl h, Run.bind_raise, finish_raise]
  rfl

/-! ### The units of the DMA controller -/

theorem dmaUnit_source_misaligned {p : Platform} {c : Fin 4} {z : Size} (check : Platform → Io)
    (h : z.aligned (p.chan c).sar = false) :
    dmaUnit check c z p = .raise (.misaligned (p.chan c).sar z.bytes) p := by
  simp [dmaUnit, h]

/-- A bus read leaves the DMA channels and the owners of addresses. -/
theorem read_chan (z : Size) (a : Word) (p : Platform) (c : Fin 4) :
    (p.read z a).2.chan c = p.chan c := by
  obtain ⟨k, h⟩ := read_platform z a p
  rw [h]
  rfl

theorem read_target (z : Size) (a : Word) (p : Platform) (t : Nat) :
    (p.read z a).2.target t = p.target t := by
  obtain ⟨k, h⟩ := read_platform z a p
  rw [h]
  exact Platform.target_congr rfl rfl t

theorem dmaUnit_destination_misaligned {p : Platform} {c : Fin 4} {z : Size} (check : Platform → Io)
    (hsrc : z.aligned (p.chan c).sar = true) (hdst : z.aligned (p.chan c).dar = false) :
    dmaUnit check c z p =
      .raise (.misaligned (p.chan c).dar z.bytes) (p.read z (p.chan c).sar).2 := by
  simp [dmaUnit, hsrc, read_chan, hdst]

theorem dmaUnit_readOnly {p : Platform} {c : Fin 4} {z : Size} (check : Platform → Io)
    (hsrc : z.aligned (p.chan c).sar = true) (hdst : z.aligned (p.chan c).dar = true)
    (h : ReadOnly p (p.chan c).dar) :
    dmaUnit check c z p = .raise (.romWrite (p.chan c).dar) (p.read z (p.chan c).sar).2 := by
  have hread : ReadOnly (p.read z (p.chan c).sar).2 (p.chan c).dar := by
    simpa only [ReadOnly, read_target] using h
  simp [dmaUnit, hsrc, read_chan, hdst, writeWith_readOnly check z _ hread, Io.bind]

end Sys2Proof.Machine

open Sys2Proof.Machine in
/-- Settles O32, by how every shared operation ends on a misaligned access, under each policy. -/
theorem misalignedAccess : Obligations.MisalignedAccess := by
  refine ⟨?first, ?second, ?dma⟩
  case first =>
    intro i s z a h ha hslot
    rw [exec_misaligned h (Size.not_aligned_iff.2 ha) hslot]
    exact ⟨endMisaligned_fault a z, endMisaligned_addressError a z⟩
  case second =>
    intro i s z m n hi hn hm u
    obtain ⟨use, hmac⟩ := exec_mac s hi
    have he : exec i s = u.endMisaligned (s.reg m) z :=
      hmac.trans (macOperands_misaligned_second i use (Size.aligned_iff.2 hn)
        (Size.not_aligned_iff.2 hm))
    have hparams : u.plat.params = s.plat.params := read_params z (s.reg n) s.plat
    rw [he, ← hparams]
    exact ⟨endMisaligned_fault (s.reg m) z, endMisaligned_addressError (s.reg m) z⟩
  case dma =>
    intro p c z check
    exact ⟨fun hsrc => dmaUnit_source_misaligned check (Size.not_aligned_iff.2 hsrc),
      fun hsrc hdst => dmaUnit_destination_misaligned check (Size.aligned_iff.2 hsrc)
        (Size.not_aligned_iff.2 hdst)⟩

open Sys2Proof.Machine in
/-- Settles O33, by how every storing operation ends on a page that may not be written. -/
theorem romStoreFaults : Obligations.RomStoreFaults := by
  refine ⟨?store, ?modify, ?dma⟩
  case store =>
    rintro i s z a v (h | ⟨n, h, rfl⟩) ha hrom
    · rw [exec_of_storeOf h]
      exact storeValue_readOnly i v (Size.aligned_iff.2 ha) hrom
    · rw [← eaPreDec_eq] at *
      rw [exec_of_pushOf h]
      exact pushValue_readOnly i v (Size.aligned_iff.2 ha) hrom
  case modify =>
    intro i s a f g h hrom
    obtain ⟨F, flags, he⟩ := exec_of_modifyOf h
    rw [he]
    exact modifyByte_readOnly i F flags hrom
  case dma =>
    intro p c z check hsrc hdst hrom
    exact dmaUnit_readOnly check (Size.aligned_iff.2 hsrc) (Size.aligned_iff.2 hdst) hrom

end

section
/-! PROOFS of the family 30_encoding.md. The decoder and the encoder as inverse of each other: an
instruction's word decodes to it, a word decodes to an instruction whose word it is, and a word that meets
a row of the opcode table decodes within that row. -/

namespace Sys2Proof

/-! ### Decoding what the encoder wrote -/

theorem exists_field8 (v : BitVec 8) : ∃ a b, field8 a b = v := ⟨_, _, field8_hi_lo v⟩

theorem exists_field12 (v : BitVec 12) : ∃ a b c, field12 a b c = v :=
  ⟨_, _, _, field12_hi_mid_lo v⟩

/-- An instruction's word decodes to it. -/
theorem decodeWord_encodeWord (i : Instr) : decodeWord (encodeWord i) = some i := by
  cases i with
  | movImm v | movWPc v | movLPc v | addImm v | movBStoreGbr v | movWStoreGbr v | movLStoreGbr v
  | movBLoadGbr v | movWLoadGbr v | movLLoadGbr v | mova v | cmpEqImm v | andImm v | andB v | orImm v
  | orB v | tstImm v | tstB v | xorImm v | xorB v | bf v | bfS v | bt v | btS v | trapa v =>
    obtain ⟨a, b, rfl⟩ := exists_field8 v
    simp only [encodeWord, hi8_field8, lo8_field8, decodeWord_word]
    rfl
  | bra v | bsr v =>
    obtain ⟨a, b, c, rfl⟩ := exists_field12 v
    simp only [encodeWord, hi12_field12, mid12_field12, lo12_field12, decodeWord_word]
    rfl
  | _ => exact decodeWord_word _ _ _ _

/-- The bytes of a word that is an instruction's decode to it, and the rest is handed back. -/
theorem decode_bytes {w : Half} {i : Instr} (h : decodeWord w = some i) (rest : List Byte) :
    decode (w.extractLsb' 8 8 :: w.extractLsb' 0 8 :: rest) = .ok (i, rest) := by
  simp only [decode, bytes_append, h]

theorem decode_bytes_eq_ok {w : Half} {i : Instr} :
    decode [w.extractLsb' 8 8, w.extractLsb' 0 8] = .ok (i, []) ↔ decodeWord w = some i := by
  refine ⟨fun h => ?_, fun h => decode_bytes h []⟩
  simp only [decode, bytes_append] at h
  split at h
  · cases h; assumption
  · cases h

/-! ### The word of a decoded instruction. A decoder compares nibbles with numbers, so the words of each of
its cases are compared as numbers. -/

section

variable {a x y z : Reg} {i : Instr}

/-- A nibble that a decoder has compared with a number is that number. -/
theorem word_leading {k : Nat} (h : a.toNat = k) : word (BitVec.ofNat 4 k) x y z = word a x y z := by
  rw [← h, BitVec.ofNat_toNat, BitVec.setWidth_eq]

theorem encodeWord_decode0 (h : decode0 x y z = some i) : encodeWord i = word 0x0 x y z := by
  unfold decode0 at h
  repeat' split at h
  all_goals cases h
  all_goals simp [encodeWord, word_toNat, ← BitVec.toNat_inj, *]

theorem encodeWord_decode2 (h : decode2 x y z = some i) : encodeWord i = word 0x2 x y z := by
  unfold decode2 at h
  split at h
  all_goals cases h
  all_goals simp [encodeWord, word_toNat, ← BitVec.toNat_inj, *]

theorem encodeWord_decode3 (h : decode3 x y z = some i) : encodeWord i = word 0x3 x y z := by
  unfold decode3 at h
  split at h
  all_goals cases h
  all_goals simp [encodeWord, word_toNat, ← BitVec.toNat_inj, *]

theorem encodeWord_decode4 (h : decode4 x y z = some i) : encodeWord i = word 0x4 x y z := by
  unfold decode4 at h
  repeat' split at h
  all_goals cases h
  all_goals simp [encodeWord, word_toNat, ← BitVec.toNat_inj, *]

theorem encodeWord_decode6 (h : decode6 x y z = some i) : encodeWord i = word 0x6 x y z := by
  unfold decode6 at h
  split at h
  all_goals cases h
  all_goals simp [encodeWord, word_toNat, ← BitVec.toNat_inj, *]

theorem encodeWord_decode8 (h : decode8 x y z = some i) : encodeWord i = word 0x8 x y z := by
  unfold decode8 at h
  split at h
  all_goals cases h
  all_goals simp [encodeWord, word_toNat, ← BitVec.toNat_inj, *]

theorem encodeWord_decodeC (h : decodeC x y z = some i) : encodeWord i = word 0xC x y z := by
  unfold decodeC at h
  split at h
  all_goals cases h
  all_goals simp [encodeWord, word_toNat, ← BitVec.toNat_inj, *]

/-- Nibbles that decode to an instruction are those of its word. -/
theorem encodeWord_decodeNibbles (h : decodeNibbles a x y z = some i) :
    encodeWord i = word a x y z := by
  unfold decodeNibbles at h
  split at h
  case h_1 ha => exact (encodeWord_decode0 h).trans (word_leading ha)
  case h_3 ha => exact (encodeWord_decode2 h).trans (word_leading ha)
  case h_4 ha => exact (encodeWord_decode3 h).trans (word_leading ha)
  case h_5 ha => exact (encodeWord_decode4 h).trans (word_leading ha)
  case h_7 ha => exact (encodeWord_decode6 h).trans (word_leading ha)
  case h_9 ha => exact (encodeWord_decode8 h).trans (word_leading ha)
  case h_13 ha => exact (encodeWord_decodeC h).trans (word_leading ha)
  all_goals cases h
  all_goals simp [encodeWord, word_leading ‹a.toNat = _›]

end

/-- A word that decodes is the word of its instruction. -/
theorem encodeWord_of_decodeWord {w : Half} {i : Instr} (h : decodeWord w = some i) :
    encodeWord i = w :=
  (encodeWord_decodeNibbles h).trans (word_nibbles w)

/-! ### The row a word meets -/

open Laws.EncodesInItsRow in
/-- Every instruction encodes to a word that meets its row. -/
theorem encodeWord_meets : ∀ i : Instr, encodeWord i &&& i.maskWord = i.matchWord :=
  @Instr.rec Statement
    movImm movWPc movLPc mov movBStore movWStore movLStore movBLoad movWLoad movLLoad movBPreDec
    movWPreDec movLPreDec movBPostInc movWPostInc movLPostInc movBStoreDisp movWStoreDisp
    movLStoreDisp movBLoadDisp movWLoadDisp movLLoadDisp movBStoreIdx movWStoreIdx movLStoreIdx
    movBLoadIdx movWLoadIdx movLLoadIdx movBStoreGbr movWStoreGbr movLStoreGbr movBLoadGbr
    movWLoadGbr movLLoadGbr mova movt swapB swapW xtrct add addImm addc addv cmpEqImm cmpEq cmpHs
    cmpGe cmpHi cmpGt cmpPz cmpPl cmpStr div1 div0s div0u dmulsL dmuluL dt extsB extsW extuB extuW
    macL macW mulL mulsW muluW neg negc sub subc subv and andImm andB not or orImm orB tas tst
    tstImm tstB xor xorImm xorB rotl rotr rotcl rotcr shal shar shll shlr shll2 shlr2 shll8 shlr8
    shll16 shlr16 bf bfS bt btS bra braf bsr bsrf jmp jsr rts clrt clrmac ldcSr ldcGbr ldcVbr ldcLSr
    ldcLGbr ldcLVbr ldsMach ldsMacl ldsPr ldsLMach ldsLMacl ldsLPr nop rte sett sleep stcSr stcGbr
    stcVbr stcLSr stcLGbr stcLVbr stsMach stsMacl stsPr stsLMach stsLMacl stsLPr trapa

/-- Two instructions of one row of the opcode table, both SH-2-only or neither (30_encoding.md R127,
R129). -/
structure SameRow (i j : Instr) : Prop where
  maskWord  : i.maskWord = j.maskWord
  matchWord : i.matchWord = j.matchWord
  sh2Only   : i.sh2Only = j.sh2Only

/-- Nibble `k` of a word that meets a row, whose mask keeps each nibble whole or drops it. -/
def rowNibble (mask val w : Half) (k : Nat) : Reg :=
  if nibble mask k = 0xF then nibble val k else nibble w k

theorem nibble_of_meets {mask val w : Half} (h : w &&& mask = val) (k : Nat) :
    nibble w k = rowNibble mask val w k := by
  unfold rowNibble
  split
  next hk =>
    have hand : nibble (w &&& mask) k = nibble w k &&& nibble mask k := BitVec.extractLsb'_and
    rw [← h, hand, hk]
    exact BitVec.and_allOnes.symm
  next => rfl

/-- A word that meets the row of `j` decodes within it. -/
theorem decodeWord_of_meets {j : Instr} {w : Half} (h : w &&& j.maskWord = j.matchWord) :
    ∃ i, decodeWord w = some i ∧ SameRow i j := by
  simp only [decodeWord, nibble_of_meets h]
  clear h
  cases j <;>
    · dsimp only [Instr.maskWord, Instr.matchWord]
      refine ⟨_, rfl, ?_⟩
      exact ⟨rfl, rfl, rfl⟩

/-! ### With and without the SH-2-only forms -/

open Claims in
theorem sh2Only_eq_sh2Form (i : Instr) : i.sh2Only = sh2Form i := by
  cases i <;> rfl

namespace Machine

open Claims

theorem decodeFor_encodeWord (sh2 : Bool) (i : Instr) :
    decodeFor sh2 (encodeWord i) = if i.wellFormed sh2 then some i else none := by
  simp only [decodeFor, decodeWord_encodeWord, Option.filter]

theorem decodeFor_eq_some {sh2 : Bool} {w : Half} {i : Instr} :
    decodeFor sh2 w = some i ↔ decodeWord w = some i ∧ i.wellFormed sh2 = true := by
  simp [decodeFor, Option.filter_eq_some_iff]

/-- A word that meets no row, or a row that does not exist on this machine, is no instruction. -/
theorem decodeFor_eq_none {sh2 : Bool} {w : Half}
    (h : (∀ j : Instr, w &&& j.maskWord ≠ j.matchWord) ∨
      (sh2 = false ∧ ∃ j : Instr, sh2Form j = true ∧ w &&& j.maskWord = j.matchWord)) :
    decodeFor sh2 w = none := by
  refine Option.eq_none_iff_forall_ne_some.2 fun i hi => ?_
  obtain ⟨hw, hwf⟩ := decodeFor_eq_some.1 hi
  obtain h | ⟨rfl, j, hj, hmeets⟩ := h
  · exact h i (encodeWord_of_decodeWord hw ▸ encodeWord_meets i)
  · obtain ⟨i', hi', hrow⟩ := decodeWord_of_meets hmeets
    obtain rfl : i' = i := Option.some_injective _ (hi'.symm.trans hw)
    have hsh2 : i'.sh2Only = true := by rw [hrow.sh2Only, sh2Only_eq_sh2Form, hj]
    simp [Instr.wellFormed, hsh2] at hwf

theorem executeWord_illegal {w : Half} {s : State}
    (h : decodeFor s.plat.params.sh2Extensions w = none) :
    executeWord w s = s.stop { reason := .illegalInstruction w, at_ := s.curAddr } := by
  simp only [executeWord, h]

end Machine

end Sys2Proof

open Sys2Proof in
/-- Settles O1, by decoding the word of every form. -/
theorem decodeEncodeRoundTrip : Obligations.DecodeEncodeRoundTrip :=
  fun i rest => decode_bytes (decodeWord_encodeWord i) rest

open Sys2Proof in
/-- Settles O2: decoding reads a word's own instruction back, and nibble by nibble a row determines how
the words that meet it decode. -/
theorem wordSelectsItsRow : Obligations.WordSelectsItsRow := by
  refine ⟨fun w i h => ?own, fun w j h => ?only⟩
  case own =>
    obtain rfl := encodeWord_of_decodeWord h
    exact ⟨encodeWord_meets i, rfl⟩
  case only =>
    obtain ⟨i, hi, hrow⟩ := decodeWord_of_meets h
    exact ⟨i, hi, hrow.maskWord, hrow.matchWord⟩

/-- Settles O3, by decoding the words. -/
theorem patternWordsDecode : Obligations.PatternWordsDecode := by
  exact ⟨rfl, rfl, rfl, rfl, rfl, rfl, rfl, rfl, rfl, rfl, rfl, rfl, rfl, rfl⟩

open Sys2Proof Sys2Proof.Machine in
/-- Settles O4: of the words that are refused, none decodes to a form of the machine. -/
theorem illegalWordsFault : Obligations.IllegalWordsFault := by
  refine ⟨fun i => ⟨?_, ?_⟩, fun w s h => executeWord_illegal (decodeFor_eq_none h)⟩
  · simp [decodeFor_encodeWord, Instr.wellFormed]
  · cases h : i.sh2Only <;> simp [decodeFor_encodeWord, Instr.wellFormed, ← sh2Only_eq_sh2Form, h]

end

section
/-! PROOFS of the family 30_encoding.md. Delay slots: the forms that may not stand in one, and the slot
flags that every instruction leaves, from how each shared operation ends. -/

namespace Sys2Proof.Machine

open Sys2Proof.Claims

/-- Every form that changes PC begins with the slot-illegal check (30_encoding.md R133). -/
theorem exec_of_changesPc {i : Instr} {s : State} (h : changesPc i = true) :
    ∃ body, exec i s = slotGuard s body := by
  cases i with
  | bra | bsr | braf | bsrf | jmp | jsr | rts | rte | bt | bf | btS | bfS | trapa => exact ⟨_, rfl⟩
  | _ => cases h

/-! ### How an instruction leaves the slot flags -/

/-- An instruction `i` that goes on from `s` has retired, and opened a delay slot only where `opens`
holds, or was abandoned with PC as it was (60_exceptions.md R353, R362). -/
inductive EndsSlots (i : Instr) (opens : Prop) (s : State) : Answer → Prop where
  | retired {t : State} {delayed : Bool} (params : t.plat.params = s.plat.params)
      (slot : delayed = true → opens) : EndsSlots i opens s (.next (t.retire i delayed))
  | abandoned {t : State} (pc : t.pc = s.pc) : EndsSlots i opens s (.next t.abandon)
  | stopped (f : Fault) : EndsSlots i opens s (.fault f)

section

variable {i : Instr} {opens : Prop} {s : State}

theorem done_endsSlots {t : State} (h : t.plat.params = s.plat.params) :
    EndsSlots i opens s (done i t) := .retired h nofun

theorem slotGuard_endsSlots {body : Answer}
    (h : s.inDelaySlot = false → EndsSlots i opens s body) :
    EndsSlots i opens s (slotGuard s body) := by
  unfold slotGuard
  split
  · exact .stopped _
  next hs => exact h (Bool.eq_false_iff.2 hs)

theorem delayedBranch_endsSlots {target : Word} {t : State} (h : t.plat.params = s.plat.params)
    (ho : opens) : EndsSlots i opens s (delayedBranch i target t) := .retired h fun _ => ho

theorem loadReg_endsSlots (z : Size) (a : Word) (n : Reg) :
    EndsSlots i opens s (loadReg i z a n s) := by
  obtain ⟨p, c, v, hp, e | e | ⟨r, e⟩⟩ := loadReg_outcomes i z a n s <;> rw [e]
  · exact .retired hp nofun
  · exact .abandoned rfl
  · exact .stopped _

theorem popReg_endsSlots (z : Size) (m n : Reg) : EndsSlots i opens s (popReg i z m n s) := by
  obtain ⟨p, c, v, hp, e | e | ⟨r, e⟩⟩ := popReg_outcomes i z m n s <;> rw [e]
  · exact .retired hp nofun
  · exact .abandoned rfl
  · exact .stopped _

theorem popControl_endsSlots (m : Reg) {put : State → Word → State}
    (hput : ∀ t v, (put t v).plat = t.plat) : EndsSlots i opens s (popControl i m put s) := by
  obtain ⟨p, c, v, hp, e | e | ⟨r, e⟩⟩ := popControl_outcomes i m put s <;> rw [e]
  · exact .retired ((congrArg Platform.params (hput _ v)).trans hp) nofun
  · exact .abandoned rfl
  · exact .stopped _

theorem storeValue_endsSlots (z : Size) (a v : Word) :
    EndsSlots i opens s (storeValue i z a v s) := by
  obtain ⟨p, c, hp, e | e | ⟨r, e⟩ | e⟩ := storeValue_outcomes i z a v s <;> rw [e]
  · exact .retired hp nofun
  · exact .abandoned rfl
  · exact .stopped _
  · exact .stopped _

theorem pushValue_endsSlots (z : Size) (v : Word) (n : Reg) :
    EndsSlots i opens s (pushValue i z v n s) := by
  obtain ⟨p, c, hp, e | e | ⟨r, e⟩ | e⟩ := pushValue_outcomes i z v n s <;> rw [e]
  · exact .retired hp nofun
  · exact .abandoned rfl
  · exact .stopped _
  · exact .stopped _

theorem modifyByte_endsSlots (a : Word) (f : Word → Word) {flags : Word → State → State}
    (hflags : ∀ v t, (flags v t).plat = t.plat) : EndsSlots i opens s (modifyByte i a f flags s) := by
  obtain ⟨p, c, v, hp, e | ⟨r, e⟩ | e⟩ := modifyByte_outcomes i a f flags s <;> rw [e]
  · exact .retired ((congrArg Platform.params (hflags v _)).trans hp) nofun
  · exact .stopped _
  · exact .stopped _

theorem macOperands_endsSlots (z : Size) (m n : Reg) {use : Word → Word → State → State}
    (huse : ∀ x y t, (use x y t).plat = t.plat) :
    EndsSlots i opens s (macOperands i z m n use s) := by
  obtain ⟨p, c, x, y, w, w', hp, e | e | ⟨r, e⟩⟩ := macOperands_outcomes i z m n use s <;> rw [e]
  · exact .retired ((congrArg Platform.params (huse x y _)).trans hp) nofun
  · exact .abandoned rfl
  · exact .stopped _

theorem returnFromException_endsSlots (ho : opens) :
    EndsSlots i opens s (returnFromException i s) := by
  obtain ⟨p, c, target, sr, hp, e | e | ⟨r, e⟩⟩ := returnFromException_outcomes i s <;> rw [e]
  · exact .retired hp fun _ => ho
  · exact .abandoned rfl
  · exact .stopped _

theorem execTrapa_endsSlots (imm : BitVec 8) : EndsSlots (.trapa imm) opens s (execTrapa imm s) := by
  refine slotGuard_endsSlots fun _ => ?_
  obtain ⟨p, c, target, hp, e | ⟨r, e⟩ | e⟩ := enterException_outcomes imm none s <;> rw [e]
  · exact .retired hp nofun
  · exact .stopped _
  · exact .stopped _

theorem execTstB_endsSlots (imm : BitVec 8) : EndsSlots (.tstB imm) opens s (execTstB imm s) := by
  unfold execTstB
  rw [dataRead_aligned rfl]
  exact .retired (read_params .byte _ s.plat) nofun

theorem execSleep_endsSlots : EndsSlots .sleep opens s (execSleep s) := by
  unfold execSleep
  split <;> exact .retired rfl nofun

end

theorem macWord_plat (x y : Half) (s : State) : (macWord x y s).plat = s.plat := by
  unfold macWord
  split
  · dsimp only
    split <;> rfl
  · rfl

/-- Only a delayed branch outside a slot opens a delay slot (30_encoding.md R135). -/
theorem exec_endsSlots (i : Instr) (s : State) :
    EndsSlots i (delayedForm i = true ∧ s.inDelaySlot = false) s (exec i s) := by
  cases i with
  | movBLoad | movBLoadDisp | movBLoadIdx | movBLoadGbr => exact loadReg_endsSlots .byte _ _
  | movWPc | movLPc | movWLoad | movLLoad | movWLoadDisp | movLLoadDisp | movWLoadIdx | movLLoadIdx
  | movWLoadGbr | movLLoadGbr =>
    exact loadReg_endsSlots _ _ _
  | movBPostInc => exact popReg_endsSlots .byte _ _
  | movWPostInc | movLPostInc => exact popReg_endsSlots _ _ _
  | movBStore | movWStore | movLStore | movBStoreDisp | movWStoreDisp | movLStoreDisp | movBStoreIdx
  | movWStoreIdx | movLStoreIdx | movBStoreGbr | movWStoreGbr | movLStoreGbr =>
    exact storeValue_endsSlots _ _ _
  | movBPreDec | movWPreDec | movLPreDec | stcLSr | stcLGbr | stcLVbr | stsLMach | stsLMacl | stsLPr =>
    exact pushValue_endsSlots _ _ _
  | andB | orB | xorB => exact modifyByte_endsSlots _ _ fun _ _ => rfl
  | tas => exact modifyByte_endsSlots (flags := fun v s => s.setT (v == 0)) _ _ fun _ _ => rfl
  | tstB imm => exact execTstB_endsSlots imm
  | macL =>
    exact macOperands_endsSlots (use := fun x y s => s.setMac (macLSum s.sr.s s.mac x y)) _ _ _
      fun _ _ _ => rfl
  | macW => exact macOperands_endsSlots _ _ _ fun _ _ _ => macWord_plat _ _ _
  | ldcLSr | ldcLGbr | ldcLVbr | ldsLMach | ldsLMacl | ldsLPr =>
    exact popControl_endsSlots _ fun _ _ => rfl
  | bra | braf | bsr | bsrf | jmp | jsr | rts =>
    exact slotGuard_endsSlots fun hs => delayedBranch_endsSlots rfl ⟨rfl, hs⟩
  | bf | bt =>
    refine slotGuard_endsSlots fun _ => ?_
    split <;> exact done_endsSlots rfl
  | bfS | btS =>
    refine slotGuard_endsSlots fun hs => ?_
    split
    · exact delayedBranch_endsSlots rfl ⟨rfl, hs⟩
    · exact done_endsSlots rfl
  | rte => exact slotGuard_endsSlots fun hs => returnFromException_endsSlots ⟨rfl, hs⟩
  | trapa imm => exact execTrapa_endsSlots imm
  | sleep => exact execSleep_endsSlots
  | _ => exact done_endsSlots rfl

end Sys2Proof.Machine

open Sys2Proof.Machine in
/-- Settles O23, by the check that every such form begins with. -/
theorem slotIllegalForms : Obligations.SlotIllegalForms := by
  intro i s hi hs
  obtain ⟨body, he⟩ := exec_of_changesPc hi
  rw [he, slotGuard_stop body hs, State.stop]

open Sys2Proof.Machine in
/-- Settles O24, from how every instruction leaves the slot flags (`exec_endsSlots`). -/
theorem slotFlagsArePulses : Obligations.SlotFlagsArePulses := by
  intro i s t ht
  have h := exec_endsSlots i s
  rw [ht] at h
  cases h with
  | retired params slot =>
    refine ⟨slot, ?_, ?_⟩ <;> rw [State.retire_inNoIntSlot, params]
    · exact id
    · exact .inl
  | abandoned pc => exact ⟨nofun, nofun, fun _ => .inr ⟨rfl, pc⟩⟩

end

section
/-! PROOFS of the family 30_encoding.md. A ready point at which nothing is taken: the stages of its step up
to the execution of the prefetched word, and the call of a hook before it. -/

namespace Sys2Proof.Machine

open Sys2Proof.Claims

/-! ### The stages of a ready point -/

/-- The answer of a cycle by what its CPU part answered: an end, a fault or a refusal. -/
def closed : Answer → Answer
  | .next t => closing t
  | .fault (.raised r t) => stopping r t
  | .fault .endless => .fault .endless
  | .refused r => .refused r

theorem closeCycle_none (t : State) : closeCycle none t = closing t := by
  unfold closeCycle closing
  cases endCycle t with
  | none => rfl
  | some u =>
    dsimp only
    cases u.fault with
    | none => rfl
    | some r => rfl

theorem step_atReadyPoint {s : State} (h : AtReadyPoint s) :
    step s = closed (readyPoint (waited s)) := by
  obtain ⟨hf, hfetch, hexec⟩ := h
  have htick : tick s = waited s := by simp [tick, waited, hf]
  have hready : (waited s).ready = true := by simp [State.ready, waited, hf, hfetch, hexec]
  simp only [step, cycle, htick, hready, if_true, hf, closeCycle_none]
  rfl

theorem canAccept_iff {s : State} {r : IrqRequest} : s.canAccept r = true ↔ Acceptable s r := by
  simp [State.canAccept, Acceptable, and_assoc]

theorem acceptStage_nothingTaken {s : State} (h : NothingTaken s) : acceptStage s = .ok () s := by
  obtain ⟨hirq, herr⟩ := h
  have hdue : ¬ (!s.sleeping && s.pendingAddressError && s.pipe.valid && !s.inDelaySlot) = true := by
    simp only [Bool.and_eq_true, Bool.not_eq_true']
    rintro ⟨⟨⟨-, he⟩, hp⟩, hs⟩
    exact herr ⟨he, hp, hs⟩
  rw [acceptStage, if_neg hdue]
  split
  next => rfl
  next r hr => rw [if_neg (mt canAccept_iff.1 (hirq r hr))]

theorem fetchStage_even {s : State} (h : s.pc.toNat % 2 = 0) :
    fetchStage s = .ok s.pipe (fetched s) := by
  rw [fetchStage, if_pos (Size.aligned_iff.2 h)]
  rfl

/-- With nothing taken, a ready point fetches and executes the word fetched before. -/
theorem readyPoint_nothingTaken {s : State} (hawake : s.sleeping = false) (hn : NothingTaken s)
    (hpc : s.pc.toNat % 2 = 0) : readyPoint s = executeStage s.pipe (fetched s) := by
  have hstay : ¬ s.staysAsleep = true := by simp [State.staysAsleep, hawake]
  rw [readyPoint, if_neg hstay, acceptStage_nothingTaken hn, Run.bind_ok, fetchStage_even hpc]

/-! ### The word that executes -/

theorem holding_iff {s : State} {i : Instr} :
    Holding s i ↔ decodeFor s.plat.params.sh2Extensions s.pipe.instruction = some i := by
  rw [Holding, decode_bytes_eq_ok, decodeFor_eq_some]

theorem decodeFor_of_not_holding {s : State} (h : ∀ i, ¬ Holding s i) :
    decodeFor s.plat.params.sh2Extensions s.pipe.instruction = none :=
  Option.eq_none_iff_forall_ne_some.2 fun i hi => h i (holding_iff.2 hi)

/-- The answer of a cycle that executes a word of the instruction `i`. -/
theorem closed_executeWord {w : Half} {i : Instr} {s : State}
    (h : decodeFor s.plat.params.sh2Extensions w = some i) :
    closed (executeWord w s) = executed i s := by
  simp only [executeWord, h, executed]
  cases exec i s with
  | next t => rfl
  | fault f => cases f <;> rfl
  | refused r => rfl

/-! ### Hooks -/

theorem hookAt_address {a : Word} {hooks : List Hook} {h : Hook} (hh : hookAt a hooks = some h) :
    h.address = a := by
  simpa using List.find?_some hh

theorem fetched_hooks (s : State) : (fetched s).plat.hooks = s.plat.hooks := by
  obtain ⟨k, hk⟩ := read_platform .word s.pc s.plat
  show (s.plat.read .word s.pc).2.hooks = _
  rw [hk]

theorem fetched_params (s : State) : (fetched s).plat.params = s.plat.params :=
  read_params .word s.pc s.plat

theorem applyHostAction_params (s : State) (a : HostAction) :
    (applyHostAction s a).plat.params = s.plat.params := by
  cases a with
  | poke a b => unfold applyHostAction; dsimp only; split <;> rfl
  | _ => rfl

theorem applyHostAction_curAddr (s : State) (a : HostAction) :
    (applyHostAction s a).curAddr = s.curAddr := by
  cases a with
  | poke a b => unfold applyHostAction; dsimp only; split <;> rfl
  | _ => rfl

/-- What no move of a handler changes, its whole list leaves as it was. -/
theorem foldl_applyHostAction {α : Type} {get : State → α}
    (h : ∀ s a, get (applyHostAction s a) = get s) (l : List HostAction) (s : State) :
    get (l.foldl applyHostAction s) = get s := by
  induction l generalizing s with
  | nil => rfl
  | cons a l ih => exact (ih _).trans (h s a)

theorem runHook_params (reply : HookReply) (s : State) :
    (runHook reply s).plat.params = s.plat.params :=
  foldl_applyHostAction (get := (·.plat.params)) applyHostAction_params _ _

theorem runHook_curAddr (reply : HookReply) (s : State) : (runHook reply s).curAddr = s.curAddr :=
  foldl_applyHostAction (get := (·.curAddr)) applyHostAction_curAddr _ _

/-- The execution of a hooked word is the handler's call and what its reply says (60_exceptions.md
R463). -/
theorem executeStage_hooked {x : Pipeline} {s : State} {h : Hook} (hv : x.valid = true)
    (hh : hookAt x.src s.plat.hooks = some h) {reply : HookReply} {u : State}
    (hreply : Config.hookReply h.handler x.src
      { s with curAddr := x.src, curWord := x.instruction } = reply)
    (hu : runHook reply { s with curAddr := x.src, curWord := x.instruction } = u) :
    executeStage x s =
      if reply.suppress then .next (u.closeSlots.delay (extraLatencyOf u.plat.params x.instruction))
      else executeWord x.instruction u := by
  subst hreply hu
  rw [executeStage, if_pos hv]
  simp only [hh]

end Sys2Proof.Machine

open Sys2Proof Sys2Proof.Machine Sys2Proof.Claims in
/-- Settles O14, by the handler's reply and by whether the pipeline's word is an instruction. -/
theorem hookedInstruction : Obligations.HookedInstruction := by
  intro s h hready hawake hn hpc hv hh reply called u
  have hexec := executeStage_hooked (reply := reply) (u := u) hv (fetched_hooks (waited s) ▸ hh)
    rfl rfl
  have hstep : step s = closed _ :=
    (step_atReadyPoint hready).trans
      (congrArg closed ((readyPoint_nothingTaken (s := waited s) hawake hn hpc).trans hexec))
  have hparams : u.plat.params = s.plat.params :=
    (runHook_params reply (executing s)).trans (fetched_params (waited s))
  have haddr : u.curAddr = s.pipe.src := runHook_curAddr reply (executing s)
  refine ⟨hookAt_address hh, fun hs => ?suppressed, fun hs => ?executed⟩
  case suppressed =>
    rw [hstep, if_pos hs, hparams, extraLatencyOf]
    refine ⟨fun i hi => ?_, fun hi => ?_⟩
    · rw [holding_iff.1 hi]
      rfl
    · rw [decodeFor_of_not_holding hi]
      rfl
  case executed =>
    rw [hstep, if_neg (Bool.eq_false_iff.1 hs)]
    refine ⟨fun i hi => closed_executeWord (hparams ▸ holding_iff.1 hi), fun hi => ?_⟩
    rw [executeWord_illegal (hparams ▸ decodeFor_of_not_holding hi), ← haddr]
    rfl

end

section
/-! PROOFS of the family 40_data_transfer.md. What the shared operations keep of the state, one lemma for each
update; then the register moves, and the loads and stores by the operation that each is. -/

namespace Sys2Proof.Machine

open Sys2Proof.Claims

/-! ### The parts an update keeps -/

section

variable {P : Part → Prop} {c : List Part} {s t : State} {p : Platform}

/-- Of the parts that `P` names, only the listed ones are changed: `Frame`, `CpuFrame` and `StoreFrame` are
this for all parts, for those of the CPU, and for all but the bytes stored. -/
def KeepsBut (P : Part → Prop) (c : List Part) (s t : State) : Prop :=
  ∀ x, x ∉ c → P x → x.kept s t

theorem KeepsBut.frame (h : KeepsBut (fun _ => True) c s t) : Frame c s t :=
  fun x hx => h x hx trivial

theorem KeepsBut.mono {d : List Part} (h : KeepsBut P c s t) (hcd : c ⊆ d) : KeepsBut P d s t :=
  fun x hx => h x fun hc => hx (hcd hc)

theorem KeepsBut.refl (P : Part → Prop) (c : List Part) (s : State) : KeepsBut P c s s := by
  intro x _ _
  cases x with
  | current => exact ⟨rfl, rfl⟩
  | _ => rfl

theorem KeepsBut.setReg (h : KeepsBut P c s t) (n : Reg) (v : Word) :
    KeepsBut P (.reg n :: c) s (t.setReg n v) := by
  intro x hx hP
  obtain ⟨hn, hc⟩ := List.ne_and_not_mem_of_not_mem_cons hx
  have ht := h x hc hP
  cases x with
  | reg k => exact (t.reg_setReg_ne v fun e => hn (congrArg Part.reg e)).trans ht
  | _ => exact ht

theorem KeepsBut.charge (h : KeepsBut P c s (s.setPlat p)) (k : Nat) :
    KeepsBut P (.execWait :: c) s (s.charge p k) := by
  intro x hx hP
  obtain ⟨he, hc⟩ := List.ne_and_not_mem_of_not_mem_cons hx
  have ht := h x hc hP
  cases x with
  | execWait => exact absurd rfl he
  | _ => exact ht

theorem KeepsBut.retire (h : KeepsBut P c s t) (i : Instr) (d : Bool) :
    KeepsBut P (slots ++ c) s (t.retire i d) := by
  intro x hx hP
  rw [List.mem_append, not_or] at hx
  obtain ⟨hs, hc⟩ := hx
  have ht := h x hc hP
  cases x with
  | delaySlot | noInterruptSlot => exact absurd (by decide) hs
  | _ => exact ht

/-- A bus read may draw bytes, and changes nothing else. -/
theorem keepsBut_read (P : Part → Prop) (z : Size) (a : Word) (s : State) :
    KeepsBut P [.draws] s (s.setPlat (s.plat.read z a).2) := by
  obtain ⟨k, h⟩ := read_platform z a s.plat
  rw [h]
  intro x hx hP
  cases x with
  | draws => exact absurd List.mem_cons_self hx
  | current => exact ⟨rfl, rfl⟩
  | _ => rfl

/-- Bytes stored change the places they are stored at, and nothing else. -/
theorem storeFrame_writeBytes {s : State} (hp : Canonical s.plat) (lo n : Nat) (v : Word) :
    StoreFrame [] lo n s
      (s.setPlat { s.plat with mem := s.plat.mem.writeBytes s.plat.pageTable lo (splitBytes n v) }) := by
  intro x _ hx
  cases x with
  | byte k =>
    have hk := hx k rfl
    refine (byteAt_writeBytes hp lo (splitBytes n v) k).trans (if_neg ?_)
    rw [splitBytes_length]
    omega
  | current => exact ⟨rfl, rfl⟩
  | _ => rfl

/-- The slot flags of an instruction that has ended (60_exceptions.md R353). -/
theorem retired_retire (i : Instr) (d : Bool) (h : t.plat.params = s.plat.params) :
    Retired i d s (t.retire i d) :=
  ⟨rfl, by rw [State.retire_inNoIntSlot, h]⟩

/-- A bus write that is accepted leaves the parameters. -/
theorem write_params {z : Size} {a v : Word} {q : Platform} (h : p.write z a v = .ok q) :
    q.params = p.params := by
  have hf := write_follows z a v p
  rw [h] at hf
  exact hf.params

end

/-! ### Values -/

theorem sext8_toInt (v : BitVec 8) : (sext8 v).toInt = v.toInt :=
  BitVec.toInt_signExtend_of_le (by decide)

theorem sext16_toInt (v : Half) : (sext16 v).toInt = v.toInt :=
  BitVec.toInt_signExtend_of_le (by decide)

theorem lowByte_eq_setWidth (v : Word) : lowByte v = v.setWidth 8 :=
  (BitVec.setWidth_eq_extractLsb' (by decide)).symm

theorem lowHalf_eq_setWidth (v : Word) : lowHalf v = v.setWidth 16 :=
  (BitVec.setWidth_eq_extractLsb' (by decide)).symm

theorem zext1_toNat (b : Bool) : (zext1 b).toNat = b.toNat := by
  cases b <;> rfl

theorem lowByte_toNat (v : Word) : (lowByte v).toNat = v.toNat % 256 := by
  simp [lowByte]

theorem lowHalf_toNat (v : Word) : (lowHalf v).toNat = v.toNat % 65536 := by
  simp [lowHalf]

theorem highHalf_toNat (v : Word) : (highHalf v).toNat = v.toNat / 65536 := by
  simp only [highHalf, BitVec.extractLsb'_toNat, Nat.shiftRight_eq_div_pow]
  omega

theorem lowHalf_append_highHalf_toNat (a b : Word) :
    (lowHalf a ++ highHalf b).toNat = a.toNat % 65536 * 65536 + b.toNat / 65536 := by
  rw [append_toNat, lowHalf_toNat, highHalf_toNat, show 2 ^ 16 = 65536 from rfl]

/-- The high half with the two low bytes exchanged. -/
theorem highHalf_append_bytes_toNat (v : Word) :
    (highHalf v ++ v.extractLsb' 0 8 ++ v.extractLsb' 8 8).toNat =
      v.toNat / 65536 * 65536 + v.toNat % 256 * 256 + v.toNat / 256 % 256 := by
  simp only [append_toNat, highHalf_toNat, BitVec.extractLsb'_toNat, Nat.shiftRight_eq_div_pow]
  omega

theorem loaded_extend (z : Size) (v : Word) : Loaded z v (z.extend v) := by
  cases z with
  | byte => exact (sext8_toInt _).trans (congrArg _ (lowByte_eq_setWidth v))
  | word => exact (sext16_toInt _).trans (congrArg _ (lowHalf_eq_setWidth v))
  | long => rfl

theorem postInc_eq (z : Size) (base : Word) : postInc z base = incremented z base := by
  cases z <;> simp only [postInc, incremented, Size.scale, Size.bytes] <;> bv_omega

/-- A whole access below an aligned address is aligned. -/
theorem aligned_decremented {z : Size} {a : Word} (h : Aligned z a) : Aligned z (decremented z a) := by
  cases z <;> simp only [Aligned, decremented, Size.bytes] at * <;> bv_omega

/-! ### What an instruction leaves -/

/-- An instruction that ends with one register written. -/
theorem completes_setReg {i : Instr} {s : State} {n : Reg} {v : Word} {post : State → Prop}
    (he : exec i s = done i (s.setReg n v)) (hpost : ∀ t : State, t.reg n = v → post t) :
    Completes i s [.reg n] post :=
  ⟨_, he, hpost _ (s.reg_setReg_same n v), retired_retire i false rfl,
    (((KeepsBut.refl _ [] s).setReg n v).retire i false).frame⟩

/-- A store that the bus accepts. -/
theorem exec_of_storeOf_ok {i : Instr} {s : State} {z : Size} {a v : Word} {p : Platform}
    (h : storeOf s i = some (z, a, v)) (ha : Aligned z a) (hp : s.plat.write z a v = .ok p) :
    exec i s = .next ((s.charge p (s.plat.cost a)).retire i false) :=
  (exec_of_storeOf h).trans (storeValue_ok i (Size.aligned_iff.2 ha) hp)

/-- A store with pre-decrement that the bus accepts. -/
theorem exec_of_pushOf_ok {i : Instr} {s : State} {z : Size} {n : Reg} {v : Word} {p : Platform}
    (h : pushOf s i = some (z, n, v)) (ha : Aligned z (s.reg n))
    (hp : s.plat.write z (decremented z (s.reg n)) v = .ok p) :
    exec i s = .next (((s.charge p (s.plat.cost (decremented z (s.reg n)))).setReg n
      (decremented z (s.reg n))).retire i false) := by
  have ha' : z.aligned (decremented z (s.reg n)) = true := Size.aligned_iff.2 (aligned_decremented ha)
  rw [← eaPreDec_eq] at *
  exact (exec_of_pushOf h).trans (pushValue_ok i ha' hp)

end Sys2Proof.Machine

open Sys2Proof.Machine Sys2Proof.Claims in
/-- Settles O27, by the value that each form writes. -/
theorem registerMovesAndExtensions : Obligations.RegisterMovesAndExtensions := by
  intro s imm d m n
  refine ⟨?movImm, ?mov, ?mova, ?movt, ?swapB, ?swapW, ?xtrct, ?extsB, ?extsW, ?extuB, ?extuW⟩
  case movImm => exact completes_setReg rfl fun t ht => ht ▸ sext8_toInt imm
  case mov => exact completes_setReg rfl fun t ht => ht
  case mova =>
    refine completes_setReg rfl fun t ht => ?_
    rw [ht, eaPcLong_eq, BitVec.toNat_ofNat]
  case movt => exact completes_setReg rfl fun t ht => ht ▸ zext1_toNat s.sr.t
  case swapB => exact completes_setReg rfl fun t ht => ht ▸ highHalf_append_bytes_toNat _
  case swapW => exact completes_setReg rfl fun t ht => ht ▸ lowHalf_append_highHalf_toNat _ _
  case xtrct => exact completes_setReg rfl fun t ht => ht ▸ lowHalf_append_highHalf_toNat _ _
  case extsB =>
    refine completes_setReg rfl fun t ht => ?_
    rw [ht, sext8_toInt, lowByte_eq_setWidth]
  case extsW =>
    refine completes_setReg rfl fun t ht => ?_
    rw [ht, sext16_toInt, lowHalf_eq_setWidth]
  case extuB =>
    refine completes_setReg rfl fun t ht => ?_
    rw [ht, BitVec.toNat_setWidth_of_le (by decide), lowByte_toNat]
  case extuW =>
    refine completes_setReg rfl fun t ht => ?_
    rw [ht, BitVec.toNat_setWidth_of_le (by decide), lowHalf_toNat]

open Sys2Proof.Machine Sys2Proof.Claims in
/-- Settles O28, from the operation that every load is. -/
theorem loadsComplete : Obligations.LoadsComplete := by
  intro i s z a n h ha
  refine ⟨_, (exec_of_loadOf h).trans (loadReg_aligned i n (Size.aligned_iff.2 ha)), ?value,
    retired_retire i false (read_params z a s.plat),
    (((keepsBut_read _ z a s).charge _).setReg n _ |>.retire i false).frame⟩
  case value => simpa using loaded_extend z _

open Sys2Proof.Machine Sys2Proof.Claims in
/-- Settles O29: the destination is written after the increment. -/
theorem postIncrementLoadsComplete : Obligations.PostIncrementLoadsComplete := by
  intro i s z m n h ha
  refine ⟨_, (exec_of_popOf h).trans (popReg_aligned i n (Size.aligned_iff.2 ha)),
    ⟨?value, fun hnm => ?incremented⟩, retired_retire i false (read_params z (s.reg m) s.plat),
    ((((keepsBut_read _ z (s.reg m) s).charge _).setReg m _).setReg n _ |>.retire i false).frame⟩
  case value => simpa using loaded_extend z _
  case incremented =>
    rw [State.retire_reg, State.reg_setReg_ne _ _ hnm.symm, State.reg_setReg_same, postInc_eq]

open Sys2Proof.Machine Sys2Proof.Claims in
/-- Settles O30, from the operation that every store is and what the bus write leaves. -/
theorem storesComplete : Obligations.StoresComplete := by
  intro i s z a v h ha
  refine ⟨fun hc hw => ?buffer, fun p hp => ?other⟩
  case buffer =>
    exact ⟨_, exec_of_storeOf_ok h ha (write_writable z v hw), holds_writeBytes hc _ _ v,
      retired_retire i false rfl,
      (KeepsBut.charge (storeFrame_writeBytes hc _ _ v) _).retire i false⟩
  case other =>
    exact ⟨_, exec_of_storeOf_ok h ha hp, rfl, trivial, retired_retire i false (write_params hp),
      (KeepsBut.charge (cpuFrame_setPlat s p) _).retire i false⟩

open Sys2Proof.Machine Sys2Proof.Claims in
/-- Settles O31: the store of the value captured, and then the address register. -/
theorem preDecrementStoresComplete : Obligations.PreDecrementStoresComplete := by
  intro i s z n v h ha a
  have hlisted : [Part.reg n, .execWait] ⊆ [.execWait, .reg n] := (List.Perm.swap _ _ []).subset
  refine ⟨fun hc hw => ?buffer, fun p hp => ?other⟩
  case buffer =>
    exact ⟨_, exec_of_pushOf_ok h ha (write_writable z v hw),
      ⟨holds_writeBytes hc _ _ v, State.reg_setReg_same _ n a⟩, retired_retire i false rfl,
      (((KeepsBut.charge (storeFrame_writeBytes hc _ _ v) _).setReg n a).mono hlisted).retire i false⟩
  case other =>
    exact ⟨_, exec_of_pushOf_ok h ha hp, rfl, State.reg_setReg_same _ n a,
      retired_retire i false (write_params hp),
      (((KeepsBut.charge (cpuFrame_setPlat s p) _).setReg n a).mono hlisted).retire i false⟩

end

section
/-! PROOFS of the family 41_arithmetic.md. What the updates of the flags and of the accumulator keep of
the state; the flag computations against exact arithmetic; then the forms by what each leaves. -/

namespace Sys2Proof.Machine

open Sys2Proof.Claims

/-! ### The parts an update of the flags or of the accumulator keeps -/

section

variable {P : Part → Prop} {c : List Part} {s t u : State}

/-- An update keeps every part that it does not list. -/
theorem KeepsBut.update {d : List Part} (h : KeepsBut P c s t)
    (hu : ∀ x, x ∈ d ∨ (x.kept s t → x.kept s u)) : KeepsBut P (d ++ c) s u := by
  intro x hx hP
  rw [List.mem_append, not_or] at hx
  obtain ⟨hd, hc⟩ := hx
  exact (hu x).resolve_left hd (h x hc hP)

theorem KeepsBut.setT (h : KeepsBut P c s t) (b : Bool) : KeepsBut P (.flagT :: c) s (t.setT b) := by
  refine h.update (d := [.flagT]) fun x => ?_
  cases x with
  | flagT => exact .inl (by decide)
  | _ => exact .inr id

theorem KeepsBut.setQT (h : KeepsBut P c s t) (q b : Bool) :
    KeepsBut P (.flagQ :: .flagT :: c) s (t.setQT q b) := by
  refine h.update (d := [.flagQ, .flagT]) fun x => ?_
  cases x with
  | flagQ | flagT => exact .inl (by decide)
  | _ => exact .inr id

theorem KeepsBut.setMQT (h : KeepsBut P c s t) (m q b : Bool) :
    KeepsBut P (.flagQ :: .flagM :: .flagT :: c) s (t.setMQT m q b) := by
  refine h.update (d := [.flagQ, .flagM, .flagT]) fun x => ?_
  cases x with
  | flagQ | flagM | flagT => exact .inl (by decide)
  | _ => exact .inr id

theorem KeepsBut.setMacl (h : KeepsBut P c s t) (v : Word) :
    KeepsBut P (.macl :: c) s (t.setMacl v) := by
  refine h.update (d := [.macl]) fun x => ?_
  cases x with
  | macl => exact .inl (by decide)
  | _ => exact .inr id

theorem KeepsBut.setMach (h : KeepsBut P c s t) (v : Word) :
    KeepsBut P (.mach :: c) s (t.setMach v) := by
  refine h.update (d := [.mach]) fun x => ?_
  cases x with
  | mach => exact .inl (by decide)
  | _ => exact .inr id

theorem KeepsBut.setMac (h : KeepsBut P c s t) (v : BitVec 64) :
    KeepsBut P (.macl :: .mach :: c) s (t.setMac v) :=
  (h.setMach _).setMacl _

/-- A charged bus read, by what a bus read leaves. -/
theorem KeepsBut.read (h : KeepsBut P c s t) (z : Size) (a : Word) (k : Nat) :
    KeepsBut P (.execWait :: .draws :: c) s (t.charge (t.plat.read z a).2 k) := by
  obtain ⟨d, hd⟩ := read_platform z a t.plat
  rw [hd]
  refine h.update (d := [.execWait, .draws]) fun x => ?_
  cases x with
  | execWait | draws => exact .inl (by decide)
  | _ => exact .inr id

end

/-! ### What a form that makes no bus access leaves -/

section

variable {i : Instr} {s u : State} {n : Reg} {v : Word} {b : Bool} {post : State → Prop}

/-- A form that makes no bus access, by the update that it is. -/
theorem completes_done {c : List Part} (he : exec i s = done i u) (hp : u.plat = s.plat)
    (hk : KeepsBut (fun _ => True) c s u) (hpost : post (u.retire i false)) : Completes i s c post :=
  ⟨_, he, hpost, retired_retire i false (congrArg _ hp), (hk.retire i false).frame⟩

theorem completes_setT (he : exec i s = done i (s.setT b)) (hpost : ∀ t : State, t.sr.t = b → post t) :
    Completes i s [.flagT] post :=
  completes_done he rfl ((KeepsBut.refl _ [] s).setT b) (hpost _ rfl)

theorem completes_setReg_setT (he : exec i s = done i ((s.setReg n v).setT b))
    (hpost : ∀ t : State, t.reg n = v → t.sr.t = b → post t) :
    Completes i s [.reg n, .flagT] post :=
  completes_done he rfl ((((KeepsBut.refl _ [] s).setReg n v).setT b).mono
    (List.Perm.swap _ _ []).subset) (hpost _ (s.reg_setReg_same n v) rfl)

theorem completes_setReg_setQT {q : Bool} (he : exec i s = done i ((s.setReg n v).setQT q b))
    (hpost : ∀ t : State, t.reg n = v → t.sr.q = q → t.sr.t = b → post t) :
    Completes i s [.reg n, .flagQ, .flagT] post :=
  completes_done he rfl ((((KeepsBut.refl _ [] s).setReg n v).setQT q b).mono (by simp))
    (hpost _ (s.reg_setReg_same n v) rfl rfl)

theorem completes_setMQT {m q : Bool} (he : exec i s = done i (s.setMQT m q b))
    (hpost : ∀ t : State, t.sr.m = m → t.sr.q = q → t.sr.t = b → post t) :
    Completes i s [.flagQ, .flagM, .flagT] post :=
  completes_done he rfl ((KeepsBut.refl _ [] s).setMQT m q b) (hpost _ rfl rfl rfl)

theorem completes_setMacl (he : exec i s = done i (s.setMacl v))
    (hpost : ∀ t : State, t.macl = v → post t) : Completes i s [.macl] post :=
  completes_done he rfl ((KeepsBut.refl _ [] s).setMacl v) (hpost _ rfl)

end

/-! ### Carry, borrow and overflow against exact arithmetic -/

theorem ofInt_toInt_add {w : Nat} (a : BitVec w) (v : Int) :
    BitVec.ofInt w (a.toInt + v) = a + BitVec.ofInt w v := by
  rw [BitVec.ofInt_add, BitVec.ofInt_toInt]

theorem ofInt_sub {w : Nat} (x y : Int) :
    BitVec.ofInt w (x - y) = BitVec.ofInt w x - BitVec.ofInt w y := by
  rw [sub_eq_add_neg, BitVec.ofInt_add, BitVec.ofInt_neg, BitVec.sub_eq_add_neg]

theorem ofInt_toNat {w : Nat} (a : BitVec w) : BitVec.ofInt w a.toNat = a := by
  rw [BitVec.ofInt_natCast, BitVec.ofNat_toNat, BitVec.setWidth_eq]

theorem ofInt_toNat_sub_toNat {w : Nat} (a b : BitVec w) :
    BitVec.ofInt w ((a.toNat : Int) - b.toNat) = a - b := by
  rw [ofInt_sub, ofInt_toNat, ofInt_toNat]

theorem flagNat_eq_toNat (b : Bool) : flagNat b = b.toNat := by
  cases b <;> rfl

theorem toNat_decide (p : Prop) [Decidable p] : (decide p).toNat = if p then 1 else 0 := by
  split <;> simp [*]

theorem carry_exact (a b : Word) (t : Bool) :
    a.toNat + b.toNat + t.toNat = (a + b + zext1 t).toNat + 2 ^ 32 * (carry a b t).toNat := by
  have ht := t.toNat_lt
  rw [carry, flagNat_eq_toNat, toNat_decide, BitVec.toNat_add, BitVec.toNat_add, zext1_toNat]
  split <;> omega

theorem borrow_exact (a b : Word) (t : Bool) :
    a.toNat + 2 ^ 32 * (borrow a b t).toNat = (a - b - zext1 t).toNat + b.toNat + t.toNat := by
  have ht := t.toNat_lt
  rw [borrow, flagNat_eq_toNat, toNat_decide, BitVec.toNat_sub, BitVec.toNat_sub, zext1_toNat]
  split <;> omega

theorem addOverflow_iff (a b : Word) :
    addOverflow a b = true ↔ (a + b).toInt ≠ a.toInt + b.toInt := by
  have h : addOverflow a b = a.saddOverflow b := (BitVec.saddOverflow_eq a b).symm
  have ha := a.toInt_lt
  have ha' := a.le_toInt
  have hb := b.toInt_lt
  have hb' := b.le_toInt
  rw [h, BitVec.toInt_add, BitVec.saddOverflow, Int.bmod_def, Bool.or_eq_true, decide_eq_true_iff,
    decide_eq_true_iff]
  omega

theorem subOverflow_iff (a b : Word) :
    subOverflow a b = true ↔ (a - b).toInt ≠ a.toInt - b.toInt := by
  have h : subOverflow a b = a.ssubOverflow b := by
    rw [BitVec.ssubOverflow_eq, subOverflow]
    cases a.msb <;> cases b.msb <;> simp
  have ha := a.toInt_lt
  have ha' := a.le_toInt
  have hb := b.toInt_lt
  have hb' := b.le_toInt
  rw [h, BitVec.toInt_sub, BitVec.ssubOverflow, Int.bmod_def, Bool.or_eq_true, decide_eq_true_iff,
    decide_eq_true_iff]
  omega

/-! ### Comparisons -/

theorem extractLsb'_byte_toNat (v : Word) (k : Nat) :
    (v.extractLsb' (8 * k) 8).toNat = v.toNat / 256 ^ k % 256 := by
  rw [BitVec.extractLsb'_toNat, Nat.shiftRight_eq_div_pow, Nat.pow_mul]

/-- Two words agree in a byte exactly when that byte of their difference by bits is 0. -/
theorem xor_byte_eq_zero (a b : Word) (k : Nat) :
    (a ^^^ b).extractLsb' (8 * k) 8 = 0#8 ↔ a.toNat / 256 ^ k % 256 = b.toNat / 256 ^ k % 256 := by
  rw [BitVec.extractLsb'_xor, BitVec.xor_eq_zero_iff, ← BitVec.toNat_inj, extractLsb'_byte_toNat,
    extractLsb'_byte_toNat]

theorem anyByteZero_iff (v : Word) :
    anyByteZero v = true ↔ ∃ k, k < 4 ∧ v.extractLsb' (8 * k) 8 = 0#8 := by
  simp only [anyByteZero, Bool.or_eq_true, beq_iff_eq]
  constructor
  · rintro (((h | h) | h) | h)
    exacts [⟨3, by decide, h⟩, ⟨2, by decide, h⟩, ⟨1, by decide, h⟩, ⟨0, by decide, h⟩]
  · rintro ⟨k, hk, h⟩
    interval_cases k <;> simp_all

/-! ### The divide step -/

theorem msb_iff (v : Word) : v.msb = true ↔ v.toInt < 0 := by
  rw [BitVec.msb_eq_toInt, decide_eq_true_iff]

/-- The shift of the divide step takes T in at the bottom. -/
theorem shiftIn_toNat (a : Word) (t : Bool) :
    (a <<< 1 ||| zext1 t).toNat = (2 * a.toNat + t.toNat) % 2 ^ 32 := by
  have hbit : (zext1 t).toNat < 2 ^ 1 := zext1_toNat t ▸ t.toNat_lt
  have hor : (a <<< 1 ||| zext1 t).toNat = (a.toNat <<< 1 ||| (zext1 t).toNat) % 2 ^ 32 := by
    rw [BitVec.toNat_or, BitVec.toNat_shiftLeft, Nat.or_mod_two_pow, Nat.mod_eq_of_lt (zext1 t).isLt]
  rw [hor, ← Nat.shiftLeft_add_eq_or_of_lt hbit, zext1_toNat, Nat.shiftLeft_eq, Nat.mul_comm, pow_one]

/-- Bit 32 of the 33-bit difference is its borrow. -/
theorem wideDifference_exact (a d : Word) :
    let r := a.setWidth 33 - d.setWidth 33
    a.toNat + 2 ^ 32 * r.msb.toNat = (r.setWidth 32).toNat + d.toNat := by
  intro r
  have hr : r.toNat = (2 ^ 33 - d.toNat + a.toNat) % 2 ^ 33 := by
    rw [BitVec.toNat_sub, BitVec.toNat_setWidth_of_le (by decide),
      BitVec.toNat_setWidth_of_le (by decide)]
  rw [BitVec.msb_eq_decide, toNat_decide, BitVec.toNat_setWidth]
  split <;> omega

/-- Bit 32 of the 33-bit sum is its carry. -/
theorem wideSum_exact (a d : Word) :
    let r := a.setWidth 33 + d.setWidth 33
    a.toNat + d.toNat = (r.setWidth 32).toNat + 2 ^ 32 * r.msb.toNat := by
  intro r
  have hr : r.toNat = (a.toNat + d.toNat) % 2 ^ 33 := by
    rw [BitVec.toNat_add, BitVec.toNat_setWidth_of_le (by decide),
      BitVec.toNat_setWidth_of_le (by decide)]
  rw [BitVec.msb_eq_decide, toNat_decide, BitVec.toNat_setWidth]
  split <;> omega

/-- The divide step subtracts where Q = M and adds elsewhere, exactly with its bit `c`
(41_arithmetic.md R217). -/
theorem divStep_exact (rn : Word) (divisor : Word → Word) (t q m : Bool) :
    let a := rn <<< 1 ||| zext1 t
    let r := divStep rn divisor t q m
    ∃ c : Bool,
      (q = m → a.toNat + 2 ^ 32 * c.toNat = r.rn.toNat + (divisor a).toNat) ∧
      (q ≠ m → a.toNat + (divisor a).toNat = r.rn.toNat + 2 ^ 32 * c.toNat) ∧
      r.q = (rn.msb ^^ c ^^ m) ∧ (r.t = true ↔ r.q = m) := by
  intro a r
  by_cases h : q = m
  · refine ⟨_, fun _ => ?_, fun hne => absurd h hne, rfl, beq_iff_eq⟩
    simp only [r, divStep, if_pos h]
    exact wideDifference_exact a (divisor a)
  · refine ⟨_, fun he => absurd he h, fun _ => ?_, rfl, beq_iff_eq⟩
    simp only [r, divStep, if_neg h]
    exact wideSum_exact a (divisor a)

/-! ### Products and the accumulator -/

theorem mulSigned16_toInt (a b : Half) : (mulSigned16 a b).toInt = a.toInt * b.toInt :=
  have hlo : -2 ^ 30 ≤ a.toInt * b.toInt := BitVec.le_toInt_mul_toInt
  have hhi : a.toInt * b.toInt ≤ 2 ^ 30 := BitVec.toInt_mul_toInt_le
  BitVec.toInt_ofInt_eq_self (by decide) (by omega) (by omega)

theorem mulUnsigned16_toNat (a b : Half) : (mulUnsigned16 a b).toNat = a.toNat * b.toNat := by
  have h : a.toNat * b.toNat < 2 ^ 16 * 2 ^ 16 := Nat.mul_lt_mul'' a.isLt b.isLt
  exact Nat.mod_eq_of_lt h

theorem mulUnsigned64_eq (a b : Word) :
    mulUnsigned64 a b = BitVec.ofInt 64 ((a.toNat : Int) * b.toNat) := by
  rw [← Nat.cast_mul, BitVec.ofInt_natCast]
  rfl

theorem setMach_machValue (s : State) (v : Word) :
    (s.setMach v).machValue = keptHigh s.plat.params.machBits v := by
  rw [State.machValue, State.setMach_mach, State.setMach_plat]
  cases s.plat.params.machBits with
  | bits32 => rfl
  | bits10 =>
    show ((BitVec.setWidth 32 (v.extractLsb' 0 10)).extractLsb' 0 10).signExtend 32 = _
    rw [← BitVec.setWidth_eq_extractLsb' (by decide), ← BitVec.setWidth_eq_extractLsb' (by decide),
      BitVec.setWidth_setWidth_of_le _ (by decide), BitVec.setWidth_eq]
    rfl

theorem setWidth_signExtend {w v : Nat} (h : w ≤ v) (x : BitVec w) :
    (x.signExtend v).setWidth w = x := by
  refine BitVec.eq_of_getLsbD_eq fun k hk => ?_
  simp only [BitVec.getLsbD_setWidth, BitVec.getLsbD_signExtend, hk, Nat.lt_of_lt_of_le hk h, if_true,
    decide_true, Bool.true_and]

/-- MACH as read is a value whose kept bits give it back. -/
theorem keptHigh_machValue_or (s : State) :
    keptHigh s.plat.params.machBits (s.machValue ||| 1) = s.machValue ||| 1 := by
  rw [State.machValue]
  cases s.plat.params.machBits with
  | bits32 => rfl
  | bits10 =>
    show (BitVec.setWidth 10 (BitVec.signExtend 32 _ ||| 1)).signExtend 32 = _ ||| 1
    rw [show (1 : Word) = BitVec.signExtend 32 1#10 from rfl, ← BitVec.signExtend_or,
      setWidth_signExtend (by decide)]

theorem ofInt_low (v : Int) : (BitVec.ofInt 64 v).extractLsb' 0 32 = BitVec.ofInt 32 v := by
  apply BitVec.eq_of_toNat_eq
  simp only [BitVec.extractLsb'_toNat, BitVec.toNat_ofInt, Nat.shiftRight_zero]
  omega

theorem ofInt_high (v : Int) :
    (BitVec.ofInt 64 v).extractLsb' 32 32 = BitVec.ofInt 32 (v / 2 ^ 32) := by
  apply BitVec.eq_of_toNat_eq
  simp only [BitVec.extractLsb'_toNat, BitVec.toNat_ofInt, Nat.shiftRight_eq_div_pow]
  omega

/-- What the 64 bits written leave, by the number they stand for. -/
theorem accumulatorIs_setMac (s : State) (v : Int) : AccumulatorIs (s.setMac (BitVec.ofInt 64 v)) v :=
  ⟨ofInt_low v, (setMach_machValue s _).trans (congrArg _ (ofInt_high v))⟩

theorem completes_setMac {i : Instr} {s : State} {v : Int}
    (he : exec i s = done i (s.setMac (BitVec.ofInt 64 v))) :
    Completes i s [.mach, .macl] (AccumulatorIs · v) :=
  completes_done he rfl (((KeepsBut.refl _ [] s).setMac _).mono (List.Perm.swap _ _ []).subset)
    (accumulatorIs_setMac s v)

/-! ### The multiply-accumulate sums -/

/-- A clamped sum, for what the comparisons of a saturation decide. -/
theorem clamp_eq_ite {lo hi : Int} (h : lo ≤ hi) (v : Int) :
    clamp lo hi v = if v > hi then hi else if v < lo then lo else v := by
  unfold clamp
  split_ifs <;> omega

theorem macWSum_eq (acc : BitVec 64) (x y : Half) :
    macWSum acc x y = BitVec.ofInt 64 (acc.toInt + x.toInt * y.toInt) :=
  (ofInt_toInt_add acc _).symm

/-- The sum of MAC.L, modulo 2^64 and then clamped to 48 bits when S is 1 (41_arithmetic.md R227). -/
theorem macLSum_eq (sat : Bool) (acc : BitVec 64) (x y : Word) :
    let sum := (BitVec.ofInt 64 (acc.toInt + x.toInt * y.toInt)).toInt
    macLSum sat acc x y =
      BitVec.ofInt 64 (if sat then clamp (-2 ^ 47) (2 ^ 47 - 1) sum else sum) := by
  intro sum
  have hsum : acc + mulSigned64 x y = BitVec.ofInt 64 (acc.toInt + x.toInt * y.toInt) :=
    (ofInt_toInt_add acc _).symm
  rw [macLSum, hsum, clamp_eq_ite (by decide)]
  cases sat with
  | false => exact BitVec.ofInt_toInt.symm
  | true =>
    simp only [if_true, apply_ite (BitVec.ofInt 64)]
    rw [BitVec.ofInt_toInt]
    rfl

theorem macWSaturate_toInt (acc : Word) (x y : Half) :
    (macWSaturate acc x y).1.toInt =
      clamp (-2 ^ 31) (2 ^ 31 - 1) (acc.toInt + x.toInt * y.toInt) := by
  rw [clamp_eq_ite (by decide), macWSaturate]
  split_ifs with hhi hlo
  · rfl
  · rfl
  · exact BitVec.toInt_ofInt_eq_self (by decide) (by omega) (by omega)

/-- The sum saturates exactly when what is left is not the sum. -/
theorem macWSaturate_saturates (acc : Word) (x y : Half) :
    (macWSaturate acc x y).2 = true ↔
      (macWSaturate acc x y).1.toInt ≠ acc.toInt + x.toInt * y.toInt := by
  rw [macWSaturate_toInt, clamp_eq_ite (by decide), macWSaturate]
  split_ifs <;> simp <;> omega

/-! ### The accumulation of MAC.W -/

section

variable {x y : Half} {s : State}

theorem macWord_modulo (h : s.sr.s = false) :
    macWord x y s = s.setMac (BitVec.ofInt 64 (s.mac.toInt + x.toInt * y.toInt)) := by
  rw [macWord, h, if_neg Bool.false_ne_true, macWSum_eq]

theorem macWord_saturating_macl (h : s.sr.s = true) :
    (macWord x y s).macl = (macWSaturate s.macl x y).1 := by
  rw [macWord, if_pos h]
  dsimp only
  split <;> rfl

/-- MACH's bit 0 is set where the sum did not fit and `MACW_SAT_FLAG` asks for it. -/
theorem macWord_saturating_machValue (h : s.sr.s = true) :
    (macWord x y s).machValue =
      if (macWord x y s).macl.toInt ≠ s.macl.toInt + x.toInt * y.toInt ∧
          s.plat.params.macwSatFlag = true
      then s.machValue ||| 1 else s.machValue := by
  simp only [macWord_saturating_macl h, ← macWSaturate_saturates, ← Bool.and_eq_true]
  rw [macWord, if_pos h]
  dsimp only
  split
  · exact (setMach_machValue _ _).trans (keptHigh_machValue_or s)
  · rfl

@[simp] theorem macWord_reg (n : Reg) : (macWord x y s).reg n = s.reg n := by
  unfold macWord
  dsimp only
  split_ifs <;> rfl

theorem KeepsBut.macWord {P : Part → Prop} {c : List Part} {s t : State} (h : KeepsBut P c s t)
    (x y : Half) : KeepsBut P (.macl :: .mach :: c) s (macWord x y t) := by
  unfold Machine.macWord
  dsimp only
  split_ifs
  · exact ((h.setMacl _).setMach _).mono (List.Perm.swap _ _ c).subset
  · exact (h.setMacl _).mono (by simp)
  · exact h.setMac _

end

/-! ### The operands of a multiply-accumulate -/

/-- The address of the second operand (41_arithmetic.md R227, R228). -/
def State.macSecond (s : State) (z : Size) (m n : Reg) : Word :=
  if n = m then incremented z (s.reg n) else s.reg m

/-- The state after the two reads and the increments, before the accumulation. -/
def State.macRead (s : State) (z : Size) (m n : Reg) : State :=
  let u := s.charge (s.plat.read z (s.reg n)).2 (s.plat.cost (s.reg n))
  let b := s.macSecond z m n
  ((u.charge (u.plat.read z b).2 (u.plat.cost b)).setReg n (incremented z (s.reg n))).setReg m
    (incremented z b)

theorem macOperands_aligned {s : State} {z : Size} {m n : Reg} (i : Instr)
    (use : Word → Word → State → State) (ha : Aligned z (s.reg n))
    (hb : Aligned z (s.macSecond z m n)) :
    let first := s.plat.read z (s.reg n)
    let second := first.2.read z (s.macSecond z m n)
    macOperands i z m n use s = .next ((use first.1 second.1 (s.macRead z m n)).retire i false) := by
  unfold State.macSecond at hb
  simp only [macOperands, postInc_eq, dataRead_aligned (Size.aligned_iff.2 ha),
    dataRead_aligned (Size.aligned_iff.2 hb), Run.bind_ok]
  rfl

theorem exec_macL_aligned {s : State} {m n : Reg} (ha : Aligned .long (s.reg n))
    (hb : Aligned .long (s.macSecond .long m n)) :
    let first := s.plat.read .long (s.reg n)
    let second := first.2.read .long (s.macSecond .long m n)
    exec (.macL m n) s =
      .next (((s.macRead .long m n).setMac (macLSum s.sr.s (s.macRead .long m n).mac first.1
        second.1)).retire (.macL m n) false) :=
  macOperands_aligned _ (fun x y t => t.setMac (macLSum t.sr.s t.mac x y)) ha hb

theorem exec_macW_aligned {s : State} {m n : Reg} (ha : Aligned .word (s.reg n))
    (hb : Aligned .word (s.macSecond .word m n)) :
    let first := s.plat.read .word (s.reg n)
    let second := first.2.read .word (s.macSecond .word m n)
    exec (.macW m n) s =
      .next ((macWord (first.1.setWidth 16) (second.1.setWidth 16) (s.macRead .word m n)).retire
        (.macW m n) false) := by
  simp only [← lowHalf_eq_setWidth]
  exact macOperands_aligned _ (fun x y t => macWord (lowHalf x) (lowHalf y) t) ha hb

section

variable (s : State) (z : Size) (m n : Reg)

@[simp] theorem macRead_params : (s.macRead z m n).plat.params = s.plat.params :=
  (read_params ..).trans (read_params ..)

@[simp] theorem macRead_machValue : (s.macRead z m n).machValue = s.machValue := by
  rw [State.machValue, macRead_params]
  rfl

@[simp] theorem macRead_mac : (s.macRead z m n).mac = s.mac := by
  rw [State.mac, macRead_machValue]
  rfl

@[simp] theorem macRead_reg_second :
    (s.macRead z m n).reg m = incremented z (s.macSecond z m n) :=
  State.reg_setReg_same ..

theorem macRead_reg_first {m n : Reg} (h : n ≠ m) :
    (s.macRead z m n).reg n = incremented z (s.reg n) :=
  (State.reg_setReg_ne _ _ h).trans (State.reg_setReg_same ..)

theorem macRead_keepsBut (P : Part → Prop) :
    KeepsBut P [.reg n, .reg m, .execWait, .draws] s (s.macRead z m n) :=
  (((((KeepsBut.refl P [] s).read z _ _).read z _ _).setReg n _).setReg m _).mono (by simp)

end

end Sys2Proof.Machine

open Sys2Proof.Machine Sys2Proof.Claims in
/-- Settles O34, by the value that each form writes. -/
theorem additionAndSubtraction : Obligations.AdditionAndSubtraction := by
  intro s imm m n
  refine ⟨?add, ?addImm, ?sub, ?neg, ?dt⟩
  case add => exact completes_setReg rfl fun t ht => ht ▸ BitVec.toNat_add _ _
  case addImm =>
    exact completes_setReg rfl fun t ht => ht.trans (ofInt_toInt_add _ _).symm
  case sub => exact completes_setReg rfl fun t ht => ht.trans (ofInt_toNat_sub_toNat _ _).symm
  case neg =>
    exact completes_setReg rfl fun t ht =>
      ht.trans ((ofInt_toNat_sub_toNat 0 _).symm.trans (congrArg _ (zero_sub _)))
  case dt =>
    refine completes_setReg_setT rfl fun t hr ht => ⟨hr.trans (ofInt_toNat_sub_toNat _ 1).symm, ?_⟩
    rw [ht, beq_iff_eq]
    bv_omega

open Sys2Proof.Machine Sys2Proof.Claims in
/-- Settles O35, from the exact meaning of each flag computation. -/
theorem carryBorrowAndOverflow : Obligations.CarryBorrowAndOverflow := by
  intro s m n
  refine ⟨?addc, ?subc, ?negc, ?addv, ?subv⟩
  case addc =>
    exact completes_setReg_setT rfl fun t hr ht => by rw [hr, ht, carry_exact]
  case subc =>
    exact completes_setReg_setT rfl fun t hr ht => by rw [hr, ht, borrow_exact]
  case negc =>
    refine completes_setReg_setT rfl fun t hr ht => ?_
    rw [hr, ht, ← borrow_exact]
    exact (Nat.zero_add _).symm
  case addv =>
    refine completes_setReg_setT rfl fun t hr ht => ?_
    rw [hr, ht, ofInt_toInt_add, BitVec.ofInt_toInt]
    exact ⟨rfl, addOverflow_iff _ _⟩
  case subv =>
    refine completes_setReg_setT rfl fun t hr ht => ?_
    rw [hr, ht, ofInt_sub, BitVec.ofInt_toInt, BitVec.ofInt_toInt]
    exact ⟨rfl, subOverflow_iff _ _⟩

open Sys2Proof.Machine Sys2Proof.Claims in
/-- Settles O36, by what each comparison decides. -/
theorem comparisons : Obligations.Comparisons := by
  intro s imm m n
  refine ⟨?eqImm, ?eq, ?hs, ?ge, ?hi, ?gt, ?pz, ?pl, ?str⟩
  case eqImm =>
    refine completes_setT rfl fun t ht => ?_
    rw [ht, beq_iff_eq, ← BitVec.toInt_inj, immSigned, sext8_toInt]
  case eq => exact completes_setT rfl fun t ht => ht ▸ beq_iff_eq
  case str =>
    refine completes_setT rfl fun t ht => ?_
    rw [ht, anyByteZero_iff]
    simp only [xor_byte_eq_zero]
  case hs | ge | hi | gt | pz | pl =>
    exact completes_setT rfl fun t ht => ht ▸ decide_eq_true_iff


open Sys2Proof.Machine Sys2Proof.Claims in
/-- Settles O37, from the exact meaning of the divide step. -/
theorem divisionSteps : Obligations.DivisionSteps := by
  intro s m n
  refine ⟨?div0u, ?div0s, ?div1⟩
  case div0u => exact completes_setMQT rfl fun t hm hq ht => ⟨hq, hm, ht⟩
  case div0s =>
    refine completes_setMQT rfl fun t hm hq ht => ?_
    rw [hm, hq, ht]
    exact ⟨msb_iff _, msb_iff _, bne_iff_ne⟩
  case div1 =>
    obtain ⟨c, hsub, hadd, hq, ht⟩ := divStep_exact (s.reg n) (fun a => if n = m then a else s.reg m)
      s.sr.t s.sr.q s.sr.m
    rw [apply_ite BitVec.toNat, shiftIn_toNat] at hsub hadd
    refine completes_setReg_setQT rfl fun t hreg hflagQ hflagT => ?_
    rw [hreg, hflagQ, hflagT]
    rw [BitVec.msb_eq_decide] at hq
    exact ⟨c, hsub, hadd, hq, ht⟩

open Sys2Proof.Machine Sys2Proof.Claims in
/-- Settles O38, from the exact products. -/
theorem multiplications : Obligations.Multiplications := by
  intro s m n
  refine ⟨?dmuls, ?dmulu, ?mul, ?muls, ?mulu⟩
  case dmuls => exact completes_setMac rfl
  case dmulu => exact completes_setMac (congrArg (fun v => done _ (s.setMac v)) (mulUnsigned64_eq _ _))
  case mul => exact completes_setMacl rfl fun t ht => ht ▸ BitVec.toNat_mul _ _
  case muls =>
    refine completes_setMacl rfl fun t ht => ?_
    rw [ht, mulSigned16_toInt, lowHalf_eq_setWidth, lowHalf_eq_setWidth]
  case mulu =>
    refine completes_setMacl rfl fun t ht => ?_
    rw [ht, mulUnsigned16_toNat, lowHalf_toNat, lowHalf_toNat]

open Sys2Proof.Machine Sys2Proof.Claims in
/-- Settles O39: the two reads, and the sum that MAC.L accumulates. -/
theorem macLongAccumulates : Obligations.MacLongAccumulates := by
  intro s m n a b ha hb first second sum
  refine ⟨_, exec_macL_aligned ha hb, ⟨?sum, ?second, fun h => ?first⟩,
    retired_retire _ false (macRead_params s .long m n),
    (((macRead_keepsBut s .long m n _).setMac _).mono (by simp) |>.retire _ false).frame⟩
  case sum =>
    rw [macRead_mac, macLSum_eq]
    exact accumulatorIs_setMac _ _
  case second => exact macRead_reg_second s .long m n
  case first => exact macRead_reg_first s .long h

open Sys2Proof.Machine Sys2Proof.Claims in
/-- Settles O40: the two reads, and the sum that MAC.W accumulates under each value of S. -/
theorem macWordAccumulates : Obligations.MacWordAccumulates := by
  intro s m n a b ha hb first second product
  refine ⟨_, exec_macW_aligned ha hb, ⟨fun h => ?modulo, fun h => ⟨?macl, ?mach⟩, ?second,
    fun h => ?first⟩, retired_retire _ false ?params,
    (((macRead_keepsBut s .word m n _).macWord _ _).mono (by simp) |>.retire _ false).frame⟩
  case modulo =>
    rw [macWord_modulo (s := s.macRead .word m n) h, macRead_mac]
    exact accumulatorIs_setMac _ _
  case macl =>
    rw [State.retire_macl, macWord_saturating_macl (s := s.macRead .word m n) h]
    exact macWSaturate_toInt _ _ _
  case mach =>
    rw [← macRead_machValue s .word m n, ← macRead_params s .word m n]
    exact macWord_saturating_machValue h
  case second => exact (macWord_reg m).trans (macRead_reg_second s .word m n)
  case first => exact (macWord_reg n).trans (macRead_reg_first s .word h)
  case params => exact (congrArg _ (macWord_plat _ _ _)).trans (macRead_params s .word m n)

end

section
/-! PROOFS of the family 42_logic.md. The operators bit by bit, and the test of TST; then the byte that a
read-modify-write reads, what it stores and what it leaves. -/

namespace Sys2Proof.Machine

open Sys2Proof.Claims

/-! ### Values -/

/-- An immediate of the logic forms has the bits of its byte and no others (30_encoding.md R123). -/
theorem immUnsigned_getLsbD (imm : BitVec 8) (k : Nat) :
    (immUnsigned imm).getLsbD k = imm.getLsbD k := by
  rw [immUnsigned, BitVec.getLsbD_setWidth, Bool.and_eq_right_iff_imp, decide_eq_true_iff]
  intro h
  exact (BitVec.lt_of_getLsbD h).trans (by decide)

/-- The test of TST: no bit is set in both operands. -/
theorem and_beq_zero_iff (v w : Word) :
    (v &&& w == 0) = true ↔ ∀ k, (v.getLsbD k && w.getLsbD k) = false := by
  rw [beq_iff_eq]
  constructor
  · intro h k
    rw [← BitVec.getLsbD_and, h]
    exact BitVec.getLsbD_zero
  · intro h
    refine BitVec.eq_of_getLsbD_eq fun k _ => ?_
    rw [BitVec.getLsbD_and, h k]
    exact BitVec.getLsbD_zero.symm

/-- The test of TST against an immediate. -/
theorem and_immUnsigned_beq_zero_iff (v : Word) (imm : BitVec 8) :
    (v &&& immUnsigned imm == 0) = true ↔ ∀ k, (v.getLsbD k && imm.getLsbD k) = false := by
  simp only [and_beq_zero_iff, immUnsigned_getLsbD]

theorem joinBytes_singleton (b : Byte) : joinBytes [b] = b.setWidth 32 := by
  apply BitVec.eq_of_toNat_eq
  rw [joinBytes_one, BitVec.toNat_setWidth_of_le (by decide)]

theorem splitBytes_one_setWidth (b : Byte) : splitBytes 1 (b.setWidth 32) = [b] := by
  simp [splitBytes]

/-- A byte is 0 exactly when the word it reads as is: the test of TAS.B. -/
theorem setWidth_beq_zero (b : Byte) : (b.setWidth 32 == 0) = decide (b = 0) := by
  refine decide_eq_decide.2 ?_
  rw [← BitVec.toNat_inj, ← BitVec.toNat_inj, BitVec.toNat_setWidth_of_le (by decide)]
  rfl

/-! ### A read-modify-write of one byte -/

/-- A byte read is a byte, whatever owns its address (20_memory.md R77). -/
theorem read_byte_eq_setWidth (p : Platform) (a : Word) :
    (p.read .byte a).1 = ((p.read .byte a).1.setWidth 8).setWidth 32 := by
  obtain ⟨b, hb⟩ : ∃ b, (p.readBytes a 1).1 = [b] := by
    unfold Platform.readBytes
    split <;> exact ⟨_, rfl⟩
  have hread : (p.read .byte a).1 = b.setWidth 32 := by
    rw [← joinBytes_singleton, ← hb]
    rfl
  rw [hread, BitVec.setWidth_setWidth_of_le b (by decide), BitVec.setWidth_eq]

/-- The byte that a buffer gives is the one at the address's place. -/
theorem read_byte_writable {p : Platform} {a : Word} (h : Writable p a) :
    p.read .byte a = ((byteAt p (place p a)).setWidth 32, p) := by
  obtain ⟨e, he, -⟩ := h
  rw [read_buffer .byte he]
  exact congrArg (·, p) (joinBytes_singleton _)

/-- The byte at the place it is stored at. -/
theorem byteAt_writeBytes_one {p : Platform} (hp : Canonical p) (lo : Nat) (b : Byte) :
    byteAt { p with mem := p.mem.writeBytes p.pageTable lo (splitBytes 1 (b.setWidth 32)) } lo = b := by
  rw [splitBytes_one_setWidth, byteAt_writeBytes hp, if_pos ⟨le_rfl, Nat.lt_succ_self lo⟩, Nat.sub_self]
  rfl

/-- The cost of a read-modify-write at `a`: that of its two accesses. -/
def State.modifyCost (s : State) (a : Word) : Nat :=
  s.plat.cost a + (s.plat.read .byte a).2.cost a

/-- A read-modify-write whose write the bus accepts. -/
theorem modifyByte_ok (i : Instr) {a : Word} {f : Word → Word} (flags : Word → State → State)
    {s : State} {p : Platform}
    (hp : (s.plat.read .byte a).2.write .byte a (f (s.plat.read .byte a).1) = .ok p) :
    modifyByte i a f flags s =
      .next ((flags (s.plat.read .byte a).1 (s.charge p (s.modifyCost a))).retire i false) := by
  rw [modifyByte, dataRead_aligned rfl, Run.bind_ok, dataWrite_ok rfl hp]
  simp only [Run.bind_ok, finish_ok, State.modifyCost, State.charge, Nat.add_assoc]

/-- A byte read-modify-write form whose write the bus accepts, by the byte `b` read. -/
theorem exec_of_modifyOf_ok {i : Instr} {s : State} {a : Word} {f : Byte → Byte} {g : Byte → Bool}
    {b : Byte} {p : Platform} (h : modifyOf s i = some (a, f, g))
    (hb : (s.plat.read .byte a).1 = b.setWidth 32)
    (hp : (s.plat.read .byte a).2.write .byte a ((f b).setWidth 32) = .ok p) :
    exec i s = .next (((s.charge p (s.modifyCost a)).setT (g b)).retire i false) := by
  cases i with
  | andB imm | orB imm | xorB imm =>
    cases h
    rw [← eaIndexed_eq] at *
    simp only [BitVec.setWidth_and, BitVec.setWidth_or, BitVec.setWidth_xor, ← hb] at hp
    exact modifyByte_ok _ _ hp
  | tas n =>
    cases h
    rw [BitVec.setWidth_or, ← hb] at hp
    simp only [← setWidth_beq_zero, ← hb]
    exact modifyByte_ok _ (fun v t => t.setT (v == 0)) hp
  | _ => cases h

/-- TST.B reads, and writes T. -/
theorem exec_tstB (imm : BitVec 8) (s : State) :
    let a := eaIndexed s.gbr (s.reg 0)
    exec (.tstB imm) s = .next (((s.charge (s.plat.read .byte a).2 (s.plat.cost a)).setT
      ((s.plat.read .byte a).1 &&& immUnsigned imm == 0)).retire (.tstB imm) false) :=
  rfl

end Sys2Proof.Machine

open Sys2Proof.Machine Sys2Proof.Claims in
/-- Settles O41, bit by bit. -/
theorem logicOnRegisters : Obligations.LogicOnRegisters := by
  intro s imm m n
  refine ⟨?and, ?andImm, ?or, ?orImm, ?xor, ?xorImm, ?not, ?tst, ?tstImm⟩
  case and => exact completes_setReg rfl fun t ht k _ => by rw [ht, BitVec.getLsbD_and]
  case andImm =>
    exact completes_setReg rfl fun t ht k _ => by rw [ht, BitVec.getLsbD_and, immUnsigned_getLsbD]
  case or => exact completes_setReg rfl fun t ht k _ => by rw [ht, BitVec.getLsbD_or]
  case orImm =>
    exact completes_setReg rfl fun t ht k _ => by rw [ht, BitVec.getLsbD_or, immUnsigned_getLsbD]
  case xor => exact completes_setReg rfl fun t ht k _ => by rw [ht, BitVec.getLsbD_xor]
  case xorImm =>
    exact completes_setReg rfl fun t ht k _ => by rw [ht, BitVec.getLsbD_xor, immUnsigned_getLsbD]
  case not =>
    exact completes_setReg rfl fun t ht k hk => by
      rw [ht, BitVec.getLsbD_not, decide_eq_true hk, Bool.true_and]
  case tst => exact completes_setT rfl fun t ht => ht ▸ and_beq_zero_iff _ _
  case tstImm => exact completes_setT rfl fun t ht => ht ▸ and_immUnsigned_beq_zero_iff _ _

open Sys2Proof.Machine Sys2Proof.Claims in
/-- Settles O42, by the byte read and what the bus write of the new byte leaves. -/
theorem logicOnBytes : Obligations.LogicOnBytes := by
  refine ⟨fun i s a f g h => ⟨fun hc hw => ?buffer, fun p hp => ?other⟩, fun s imm => ?tstB⟩
  case buffer =>
    have hread := read_byte_writable hw
    have hp := write_writable .byte ((f (byteAt s.plat (place s.plat a))).setWidth 32) hw
    exact ⟨_, exec_of_modifyOf_ok h (congrArg Prod.fst hread) (hread ▸ hp),
      ⟨byteAt_writeBytes_one hc _ _, rfl⟩, retired_retire i false rfl,
      ((KeepsBut.charge (storeFrame_writeBytes hc _ _ _) _).setT _ |>.mono
        (List.Perm.swap _ _ []).subset).retire i false⟩
  case other =>
    exact ⟨_, exec_of_modifyOf_ok h (read_byte_eq_setWidth s.plat a) hp, rfl, rfl,
      retired_retire i false ((write_params hp).trans (read_params ..)),
      ((KeepsBut.charge (cpuFrame_setPlat s p) _).setT _ |>.mono
        (List.Perm.swap _ _ []).subset).retire i false⟩
  case tstB =>
    rw [← eaIndexed_eq]
    exact ⟨_, exec_tstB imm s, and_immUnsigned_beq_zero_iff _ _, retired_retire _ false (read_params ..),
      (((KeepsBut.refl _ [] s).read .byte _ _).setT _ |>.retire _ false).frame⟩

end

section
/-! PROOFS of the family 43_shift.md. A shift by one place as an exact equation of the value, the bit
shifted in and the bit shifted out; then the forms, each by the value that it writes. -/

namespace Sys2Proof.Machine

/-! ### Shifts as arithmetic -/

theorem ushiftRight_toNat (v : Word) (k : Nat) : (v >>> k).toNat = v.toNat / 2 ^ k := by
  rw [BitVec.toNat_ushiftRight, Nat.shiftRight_eq_div_pow]

theorem shiftLeft_toNat (v : Word) (k : Nat) : (v <<< k).toNat = v.toNat * 2 ^ k % 2 ^ 32 := by
  rw [BitVec.toNat_shiftLeft, Nat.shiftLeft_eq]

/-- Bit 31 is what a shift to the left by one place loses. -/
theorem msb_toNat (v : Word) : v.msb.toNat = v.toNat / 2 ^ 31 := by
  rw [BitVec.msb_eq_decide, toNat_decide]
  split <;> omega

/-- Bit 0 is what a shift to the right by one place loses. -/
theorem getLsbD_zero_toNat (v : Word) : (v.getLsbD 0).toNat = v.toNat % 2 := by
  rw [BitVec.getLsbD, Nat.toNat_testBit, pow_zero, Nat.div_one]

/-! ### A shift by one place -/

/-- To the left, with `b` shifted in at the bottom. -/
theorem shiftLeft_one_exact (v : Word) (b : Bool) :
    2 * v.toNat + b.toNat = (v <<< 1 ||| zext1 b).toNat + 2 ^ 32 * v.msb.toNat := by
  have hb := b.toNat_lt
  rw [shiftIn_toNat, msb_toNat]
  omega

/-- To the left, with 0 shifted in. -/
theorem shiftLeft_one_zero_exact (v : Word) :
    2 * v.toNat = (v <<< 1).toNat + 2 ^ 32 * v.msb.toNat := by
  have h := shiftLeft_one_exact v false
  rwa [show zext1 false = 0#32 from rfl, BitVec.or_zero] at h

/-- The bit shifted in at the top stands above every bit of the value shifted right. -/
theorem ushiftRight_one_or_toNat (v : Word) (b : Bool) :
    (v >>> 1 ||| zext1 b <<< 31).toNat = 2 ^ 31 * b.toNat + v.toNat / 2 := by
  have hlow : v.toNat / 2 < 2 ^ 31 := by omega
  have hb := b.toNat_lt
  rw [BitVec.toNat_or, ushiftRight_toNat, shiftLeft_toNat, zext1_toNat, Nat.mod_eq_of_lt (by omega),
    Nat.or_comm, Nat.mul_comm, pow_one, Nat.two_pow_add_eq_or_of_lt hlow]

/-- To the right, with `b` shifted in at the top. -/
theorem ushiftRight_one_exact (v : Word) (b : Bool) :
    v.toNat + 2 ^ 32 * b.toNat = 2 * (v >>> 1 ||| zext1 b <<< 31).toNat + (v.getLsbD 0).toNat := by
  rw [ushiftRight_one_or_toNat, getLsbD_zero_toNat]
  omega

/-- To the right, with 0 shifted in. -/
theorem ushiftRight_one_zero_exact (v : Word) :
    v.toNat = 2 * (v >>> 1).toNat + (v.getLsbD 0).toNat := by
  rw [ushiftRight_toNat, getLsbD_zero_toNat]
  omega

/-- To the right, with the sign kept. -/
theorem sshiftRight_one_exact (v : Word) :
    v.toInt = 2 * (v.sshiftRight 1).toInt + (v.getLsbD 0).toNat := by
  have hparity : (v.toNat : Int) % 2 = v.toInt % 2 := by
    rw [BitVec.toInt_eq_toNat_cond]
    split <;> omega
  rw [BitVec.toInt_sshiftRight, Int.shiftRight_eq_div_pow, getLsbD_zero_toNat]
  omega

end Sys2Proof.Machine

open Sys2Proof.Machine Sys2Proof.Claims in
/-- Settles O43, from the exact meaning of a shift by one place. -/
theorem shifts : Obligations.Shifts := by
  intro s n
  refine ⟨?rotl, ?rotr, ?rotcl, ?rotcr, ?shal, ?shar, ?shll, ?shlr, ?shll2, ?shlr2, ?shll8, ?shlr8,
    ?shll16, ?shlr16⟩
  case rotl | rotcl =>
    exact completes_setReg_setT rfl fun t hr ht => by rw [hr, ht, shiftLeft_one_exact]
  case rotr | rotcr =>
    exact completes_setReg_setT rfl fun t hr ht => by rw [hr, ht, ushiftRight_one_exact]
  case shal | shll =>
    exact completes_setReg_setT rfl fun t hr ht => by rw [hr, ht, shiftLeft_one_zero_exact]
  case shar =>
    exact completes_setReg_setT rfl fun t hr ht => by rw [hr, ht, sshiftRight_one_exact]
  case shlr =>
    exact completes_setReg_setT rfl fun t hr ht => by rw [hr, ht, ← ushiftRight_one_zero_exact]
  case shll2 | shll8 | shll16 => exact completes_setReg rfl fun t ht => ht ▸ shiftLeft_toNat _ _
  case shlr2 | shlr8 | shlr16 => exact completes_setReg rfl fun t ht => ht ▸ ushiftRight_toNat _ _

end

section
/-! PROOFS of the family 44_branch.md. Branch targets as arithmetic, what the updates of a branch keep of the
state, and the two ways in which a branch ends; then the forms, each by its end outside a delay slot. -/

namespace Sys2Proof.Machine

open Sys2Proof.Claims

/-! ### Branch targets as arithmetic -/

/-- Sign extension to 32 bits keeps the value, so the target is PC and twice the displacement. -/
theorem ofInt_toNat_add_two_mul_toInt {w : Nat} (pc : Word) (d : BitVec w) :
    BitVec.ofInt 32 ((pc.toNat : Int) + 2 * d.toInt) = pc + d.signExtend 32 * 2 := by
  rw [BitVec.ofInt_add, ofInt_toNat, BitVec.ofInt_mul, BitVec.mul_comm]
  rfl

theorem branchTarget8_eq (pc : Word) (d : BitVec 8) :
    branchTarget8 pc d = BitVec.ofInt 32 ((pc.toNat : Int) + 2 * d.toInt) :=
  (ofInt_toNat_add_two_mul_toInt pc d).symm

theorem branchTarget12_eq (pc : Word) (d : BitVec 12) :
    branchTarget12 pc d = BitVec.ofInt 32 ((pc.toNat : Int) + 2 * d.toInt) :=
  (ofInt_toNat_add_two_mul_toInt pc d).symm

/-! ### The parts that the updates of a branch keep -/

section

variable {P : Part → Prop} {c : List Part} {s t : State}

theorem KeepsBut.setPc (h : KeepsBut P c s t) (v : Word) : KeepsBut P (.pc :: c) s (t.setPc v) := by
  refine h.update (d := [.pc]) fun x => ?_
  cases x with
  | pc => exact .inl (by decide)
  | _ => exact .inr id

theorem KeepsBut.setPr (h : KeepsBut P c s t) (v : Word) : KeepsBut P (.pr :: c) s (t.setPr v) := by
  refine h.update (d := [.pr]) fun x => ?_
  cases x with
  | pr => exact .inl (by decide)
  | _ => exact .inr id

theorem KeepsBut.flush (h : KeepsBut P c s t) : KeepsBut P (.pipeline :: c) s t.flush := by
  refine h.update (d := [.pipeline]) fun x => ?_
  cases x with
  | pipeline => exact .inl (by decide)
  | _ => exact .inr id

end

/-! ### How a branch ends -/

section

variable {i : Instr} {s u : State} {target : Word} {post : State → Prop}

/-- A taken branch drops the prefetched word. -/
theorem completes_takenBranch (he : exec i s = takenBranch i target s) :
    Completes i s [.pc, .pipeline]
      (fun t => t.pc = target ∧ t.pipe = { s.pipe with valid := false }) :=
  completes_done he rfl
    (((KeepsBut.refl _ [] s).setPc target).flush.mono (List.Perm.swap _ _ []).subset) ⟨rfl, rfl⟩

/-- A branch that is not taken changes nothing. -/
theorem completes_unchanged (he : exec i s = done i s) : Completes i s [] (fun _ => True) :=
  completes_done he rfl (KeepsBut.refl _ [] s) trivial

/-- A delayed branch, by the update made before it. -/
theorem branches_delayedBranch {c : List Part} (he : exec i s = delayedBranch i target u)
    (hp : u.plat = s.plat) (hk : KeepsBut (fun _ => True) c s u)
    (hpost : post ((u.setPc target).retire i true)) : Branches i s target c post :=
  ⟨_, he, rfl, hpost, retired_retire i true (congrArg _ hp), ((hk.setPc target).retire i true).frame⟩

theorem branches_jump (he : exec i s = delayedBranch i target s) :
    Branches i s target [] (fun _ => True) :=
  branches_delayedBranch he rfl (KeepsBut.refl _ [] s) trivial

/-- A subroutine call leaves in PR the PC that it sees (44_branch.md R290). -/
theorem branches_call (he : exec i s = delayedBranch i target (s.setPr s.pc)) :
    Branches i s target [.pr] (fun t => t.pr = s.pc) :=
  branches_delayedBranch he rfl ((KeepsBut.refl _ [] s).setPr s.pc) rfl

end

/-! ### The two ways of a conditional branch -/

section

variable {i : Instr} {s : State} {c : Prop} [Decidable c] {a b : Answer}

theorem exec_conditional_pos (hs : s.inDelaySlot = false) (hc : c)
    (he : exec i s = slotGuard s (if c then a else b)) : exec i s = a := by
  rw [he, slotGuard_pass _ hs, if_pos hc]

theorem exec_conditional_neg (hs : s.inDelaySlot = false) (hc : ¬ c)
    (he : exec i s = slotGuard s (if c then a else b)) : exec i s = b := by
  rw [he, slotGuard_pass _ hs, if_neg hc]

end

end Sys2Proof.Machine

open Sys2Proof.Machine Sys2Proof.Claims in
/-- Settles O44, by the way each form goes under each value of T. -/
theorem conditionalBranches : Obligations.ConditionalBranches := by
  intro s d hs
  rw [← branchTarget8_eq]
  refine ⟨fun ht => ?clear, fun ht => ?set⟩
  case clear | set =>
    exact ⟨completes_takenBranch (exec_conditional_pos hs ht rfl),
      branches_jump (exec_conditional_pos hs ht rfl),
      completes_unchanged (exec_conditional_neg hs (by simp [ht]) rfl),
      completes_unchanged (exec_conditional_neg hs (by simp [ht]) rfl)⟩

open Sys2Proof.Machine Sys2Proof.Claims in
/-- Settles O45: outside a delay slot each form is its delayed branch, a call after the write of PR. -/
theorem unconditionalBranches : Obligations.UnconditionalBranches := by
  intro s d m hs
  rw [← branchTarget12_eq, ← eaIndexed_eq]
  refine ⟨?bra, ?braf, ?bsr, ?bsrf, ?jmp, ?jsr, ?rts⟩
  case bra | braf | jmp | rts => exact branches_jump (slotGuard_pass _ hs)
  case bsr | bsrf | jsr => exact branches_call (slotGuard_pass _ hs)

end

section
/-! PROOFS of the family 45_system.md. What the updates of the control registers keep of the state, and the
forms that load, store and pop them; then the entry of an exception, with its pushes, its vector and the
return from it. -/

namespace Sys2Proof.Machine

open Sys2Proof.Claims

/-! ### The parts an update of a control register keeps -/

section

variable {P : Part → Prop} {c : List Part} {s t : State}

theorem KeepsBut.setSr (h : KeepsBut P c s t) (v : Word) :
    KeepsBut P (.flagT :: .flagS :: .mask :: .flagQ :: .flagM :: c) s (t.setSr v) := by
  refine h.update (d := [.flagT, .flagS, .mask, .flagQ, .flagM]) fun x => ?_
  cases x with
  | flagT | flagS | mask | flagQ | flagM => exact .inl (by decide)
  | _ => exact .inr id

theorem KeepsBut.setGbr (h : KeepsBut P c s t) (v : Word) : KeepsBut P (.gbr :: c) s (t.setGbr v) := by
  refine h.update (d := [.gbr]) fun x => ?_
  cases x with
  | gbr => exact .inl (by decide)
  | _ => exact .inr id

theorem KeepsBut.setVbr (h : KeepsBut P c s t) (v : Word) : KeepsBut P (.vbr :: c) s (t.setVbr v) := by
  refine h.update (d := [.vbr]) fun x => ?_
  cases x with
  | vbr => exact .inl (by decide)
  | _ => exact .inr id

theorem KeepsBut.setSleeping (h : KeepsBut P c s t) (b : Bool) :
    KeepsBut P (.sleeping :: c) s (t.setSleeping b) := by
  refine h.update (d := [.sleeping]) fun x => ?_
  cases x with
  | sleeping => exact .inl (by decide)
  | _ => exact .inr id

end

/-! ### Values of the control registers -/

/-- SR as read: its fields at their places, and its reserved bits 0 (10_state.md R35). -/
theorem StatusReg.word_toNat (r : StatusReg) :
    r.word.toNat = r.t.toNat + 2 * r.s.toNat + 16 * r.i.toNat + 256 * r.q.toNat + 512 * r.m.toNat := by
  simp only [StatusReg.word, append_toNat, BitVec.toNat_ofBool, BitVec.toNat_ofNat]
  omega

theorem machValue_eq_keptHigh (s : State) :
    s.machValue = keptHigh s.plat.params.machBits s.mach := by
  rw [State.machValue]
  cases s.plat.params.machBits with
  | bits32 => rfl
  | bits10 =>
    show (s.mach.extractLsb' 0 10).signExtend 32 = _
    rw [← BitVec.setWidth_eq_extractLsb' (by decide)]
    rfl

/-! ### Loads of a control register from memory -/

/-- A pop into a control register, by the update `put` that changes the parts `d` and no register. -/
theorem completes_popControl {i : Instr} {s : State} {m : Reg} {put : State → Word → State}
    {d : List Part} {post : State → Prop} (he : exec i s = popControl i m put s)
    (ha : Aligned .long (s.reg m))
    (hkeep : ∀ {c : List Part} {t : State}, KeepsBut (fun _ => True) c s t → ∀ v,
      KeepsBut (fun _ => True) (d ++ c) s (put t v))
    (hpost : ∀ t : State, t.plat.params = s.plat.params →
      post ((put t (s.plat.read .long (s.reg m)).1).retire i false))
    (hplat : ∀ t v, (put t v).plat = t.plat := by intros; rfl)
    (hreg : ∀ t v, (put t v).reg m = t.reg m := by intros; rfl) :
    Completes i s (d ++ [.reg m, .execWait, .draws])
      (fun t => post t ∧ t.reg m = incremented .long (s.reg m)) := by
  have hparams := read_params .long (s.reg m) s.plat
  refine ⟨_, he.trans (popControl_aligned i put (Size.aligned_iff.2 ha)), ⟨hpost _ hparams, ?popped⟩,
    retired_retire i false ?params,
    ((hkeep (((KeepsBut.refl _ [] s).read .long _ _).setReg m _) _).retire i false).frame⟩
  case popped => rw [State.retire_reg, hreg, State.reg_setReg_same, postInc_eq]
  case params =>
    rw [hplat]
    exact hparams

/-! ### Longs pushed to pages that may be written -/

/-- A long stored and charged, in a page that may be written. -/
def State.push (s : State) (a v : Word) : State :=
  s.charge
    { s.plat with mem := s.plat.mem.writeBytes s.plat.pageTable (place s.plat a) (splitBytes 4 v) }
    (s.plat.cost a)

theorem entryWrite_writable {s : State} {a : Word} (v : Word) (ha : Aligned .long a)
    (hw : Writable s.plat a) : entryWrite a v s = .ok () (s.push a v) :=
  entryWrite_ok (Size.aligned_iff.2 ha) (write_writable .long v hw)

theorem push_canonical {s : State} (h : Canonical s.plat) (a v : Word) : Canonical (s.push a v).plat :=
  Memory.writeBytes_wf h

theorem push_writable {s : State} {b : Word} (h : Writable s.plat b) (a v : Word) :
    Writable (s.push a v).plat b :=
  h.imp fun _ he => ⟨(Platform.target_withMem _ _).trans he.1, he.2⟩

/-- A push keeps every part but the bytes that it stores. -/
theorem KeepsBut.push {P : Part → Prop} {c : List Part} {s t : State} (h : KeepsBut P c s t)
    (hc : Canonical t.plat) (a v : Word)
    (hP : ∀ k, P (.byte k) → k < place t.plat a ∨ place t.plat a + 4 ≤ k) :
    KeepsBut P (.execWait :: c) s (t.push a v) := by
  intro x hx hPx
  obtain ⟨he, hx⟩ := List.ne_and_not_mem_of_not_mem_cons hx
  have ht := h x hx hPx
  cases x with
  | execWait => exact absurd rfl he
  | byte k => exact (storeFrame_writeBytes hc _ 4 v (.byte k) List.not_mem_nil
      (fun _ e => Part.byte.inj e ▸ hP k hPx)).trans ht
  | _ => exact ht

theorem holds_push {s : State} (h : Canonical s.plat) (a v : Word) :
    Holds (s.push a v).plat (place s.plat a) 4 v :=
  holds_writeBytes h _ 4 v

/-- What stands apart from a push is still held. -/
theorem holds_push_of_apart {s : State} {lo : Nat} {w : Word} (h : Holds s.plat lo 4 w)
    (hc : Canonical s.plat) (a v : Word) (hapart : Apart .long lo (place s.plat a)) :
    Holds (s.push a v).plat lo 4 w := by
  intro k hk
  refine (congrArg BitVec.toNat (storeFrame_writeBytes hc _ 4 v (.byte (lo + k)) List.not_mem_nil
    fun _ e => ?_)).trans (h k hk)
  cases e
  simp only [Apart, Size.bytes] at hapart
  omega

/-! ### Stack slots and their places -/

theorem decremented_long (a : Word) : decremented .long a = a - 4 := (eaPreDec_eq .long a).symm

theorem incremented_long (a : Word) : incremented .long a = a + 4 := (postInc_eq .long a).symm

/-- A page of the buffers starts at a multiple of its size, so a place agrees with its address modulo the
page size (20_memory.md R83). -/
theorem place_mod {p : Platform} {a : Word} (h : Writable p a) :
    place p a % 4096 = a.toNat % 4096 := by
  obtain ⟨e, he, -⟩ := h
  have hphysical : physical a % 4096 = a.toNat % 4096 := by
    rw [physical, translate_toNat]
    split <;> omega
  rw [place_eq he, PageEntry.place, PageEntry.base, pageSize]
  omega

/-- Neighbouring longs are stored apart, even where a page is mirrored. -/
theorem apart_decremented {p : Platform} {a : Word} (ha : Aligned .long a) (hw : Writable p a)
    (hw' : Writable p (decremented .long a)) :
    Apart .long (place p a) (place p (decremented .long a)) := by
  have hplace := place_mod hw
  have hplace' := place_mod hw'
  have hstep : (decremented .long a).toNat = (a.toNat + 4294967292) % 4294967296 := by
    rw [decremented_long]
    bv_omega
  simp only [Aligned, Apart, Size.bytes] at *
  omega

/-! ### Taking an exception -/

/-- The address of a vector (60_exceptions.md R360). -/
def State.vectorAt (s : State) (v : BitVec 8) : Word := BitVec.ofNat 32 (s.vbr.toNat + 4 * v.toNat)

theorem vectorAt_eq (s : State) (v : BitVec 8) : s.vbr + v.setWidth 32 * 4 = s.vectorAt v := by
  unfold State.vectorAt
  bv_omega

/-- The state after both pushes of an exception entry. -/
def State.pushed (s : State) : State :=
  let at1 := decremented .long (s.reg 15)
  (s.push at1 s.srWord).push (decremented .long at1) (s.pc - 2)

/-- No byte of both pushes of an exception entry. -/
def State.OutsidePushes (s : State) (x : Part) : Prop :=
  let at1 := decremented .long (s.reg 15)
  let at2 := decremented .long at1
  ∀ k, x = .byte k → (k < place s.plat at1 ∨ place s.plat at1 + 4 ≤ k) ∧
    (k < place s.plat at2 ∨ place s.plat at2 + 4 ≤ k)

/-- The state after an exception entry that keeps the mask. -/
def State.entered (s : State) (v : BitVec 8) : State :=
  let u := s.pushed
  let read := u.plat.read .long (s.vectorAt v)
  (((u.charge read.2 (u.plat.cost (s.vectorAt v))).setReg 15
    (decremented .long (decremented .long (s.reg 15)))).setPc read.1).flush

section

variable {s : State}

/-- The vector read of an entry changes the draw counter alone. -/
theorem entered_plat (s : State) (v : BitVec 8) :
    ∃ k, (s.entered v).plat = { s.pushed.plat with draws := k } :=
  read_platform .long (s.vectorAt v) s.pushed.plat

theorem entered_params (s : State) (v : BitVec 8) : (s.entered v).plat.params = s.plat.params :=
  read_params .long (s.vectorAt v) s.pushed.plat

theorem entered_reg_sp (s : State) (v : BitVec 8) :
    (s.entered v).reg 15 = decremented .long (decremented .long (s.reg 15)) :=
  State.reg_setReg_same ..

/-- PC is the vector as it reads after the pushes. -/
theorem entered_pc (s : State) (v : BitVec 8) :
    (s.entered v).pc =
      (Platform.read { (s.entered v).plat with draws := s.plat.draws } .long (s.vectorAt v)).1 := by
  obtain ⟨k, hk⟩ := entered_plat s v
  rw [hk]
  rfl

theorem holds_entered {lo : Nat} {w : Word} (h : Holds s.pushed.plat lo 4 w) (v : BitVec 8) :
    Holds (s.entered v).plat lo 4 w := by
  obtain ⟨k, hk⟩ := entered_plat s v
  rw [hk]
  exact h

variable (hc : Canonical s.plat) (hsp : Aligned .long (s.reg 15))
  (hw₁ : Writable s.plat (decremented .long (s.reg 15)))
  (hw₂ : Writable s.plat (decremented .long (decremented .long (s.reg 15))))

include hc hsp hw₁ hw₂ in
theorem pushed_holds_sr :
    Holds s.pushed.plat (place s.plat (decremented .long (s.reg 15))) 4 s.srWord :=
  holds_push_of_apart (holds_push hc _ _) (push_canonical hc _ _) _ _
    (apart_decremented (aligned_decremented hsp) hw₁ hw₂)

include hc in
theorem pushed_holds_pc :
    Holds s.pushed.plat (place s.plat (decremented .long (decremented .long (s.reg 15)))) 4
      (BitVec.ofInt 32 ((s.pc.toNat : Int) - 2)) := by
  rw [show BitVec.ofInt 32 ((s.pc.toNat : Int) - 2) = s.pc - 2 from ofInt_toNat_sub_toNat s.pc 2]
  exact holds_push (push_canonical hc _ _) _ _

include hsp hw₁ hw₂ in
/-- An entry whose pushes go to pages that may be written, and whose vector is aligned. -/
theorem enterException_writable {v : BitVec 8} (m : Option Nat) (hv : Aligned .long (s.vectorAt v)) :
    enterException v m s = .ok () ((s.entered v).raiseMask m) := by
  have hal₁ := aligned_decremented hsp
  simp only [enterException, ← decremented_long, vectorAt_eq]
  rw [entryWrite_writable _ hal₁ hw₁, Run.bind_ok]
  rw [entryWrite_writable _ (aligned_decremented hal₁) (push_writable hw₂ _ _), Run.bind_ok]
  change (entryRead (s.vectorAt v) s.pushed).bind _ = _
  rw [entryRead_aligned (Size.aligned_iff.2 hv)]
  rfl

include hc in
theorem entered_keepsBut (v : BitVec 8) :
    KeepsBut s.OutsidePushes [.reg 15, .pc, .pipeline, .execWait, .draws] s (s.entered v) := by
  have hfirst := (KeepsBut.refl s.OutsidePushes [] s).push hc _ s.srWord fun k hk => (hk k rfl).1
  have hpushed : KeepsBut s.OutsidePushes [.execWait, .execWait] s s.pushed :=
    hfirst.push (push_canonical hc _ _) _ (s.pc - 2) fun k hk => (hk k rfl).2
  exact ((((hpushed.read .long _ _).setReg 15 _).setPc _).flush).mono (by simp)

end

/-! ### Returning from an exception -/

/-- The state after RTE's two reads (45_system.md R327). -/
def State.popped (s : State) : State :=
  let u := s.charge (s.plat.read .long (s.reg 15)).2 (s.plat.cost (s.reg 15))
  let b := incremented .long (s.reg 15)
  u.charge (u.plat.read .long b).2 (u.plat.cost b)

theorem aligned_incremented {a : Word} (h : Aligned .long a) : Aligned .long (incremented .long a) := by
  simp only [Aligned, incremented, Size.bytes] at *
  bv_omega

theorem returnFromException_aligned (i : Instr) {s : State} (ha : Aligned .long (s.reg 15)) :
    let first := s.plat.read .long (s.reg 15)
    let second := first.2.read .long (incremented .long (s.reg 15))
    returnFromException i s =
      .next ((((s.popped.setReg 15 (incremented .long (incremented .long (s.reg 15)))).setSr
        second.1).setPc first.1).retire i true) := by
  have height : s.reg 15 + 8 = incremented .long (incremented .long (s.reg 15)) := by
    rw [incremented_long, incremented_long, BitVec.add_assoc]
    rfl
  simp only [returnFromException, height, ← incremented_long, Run.bind_ok, finish_ok,
    dataRead_aligned (Size.aligned_iff.2 ha),
    dataRead_aligned (Size.aligned_iff.2 (aligned_incremented ha))]
  rfl

end Sys2Proof.Machine

open Sys2Proof.Machine Sys2Proof.Claims in
/-- Settles O20, from the entry that keeps the mask. -/
theorem trapaTakesItsVector : Obligations.TrapaTakesItsVector := by
  intro s imm sp at1 at2 vector hslot hc hsp hv hw₁ hw₂
  have hexec : exec (.trapa imm) s = .next ((s.entered imm).retire (.trapa imm) false) :=
    (slotGuard_pass _ hslot).trans
      (congrArg (finish (.trapa imm) false) (enterException_writable hsp hw₁ hw₂ none hv))
  refine ⟨_, hexec, holds_entered (pushed_holds_sr hc hsp hw₁ hw₂) imm,
    holds_entered (pushed_holds_pc hc) imm, entered_reg_sp s imm, entered_pc s imm, rfl,
    retired_retire _ false (entered_params s imm), (entered_keepsBut hc imm).retire _ false⟩

open Sys2Proof.Machine Sys2Proof.Claims in
/-- Settles O21, by the two reads and the updates that follow them. -/
theorem rteRestores : Obligations.RteRestores := by
  intro s hslot ha first second
  have hkeep : KeepsBut (fun _ => True) [.execWait, .draws, .execWait, .draws] s s.popped :=
    ((KeepsBut.refl _ [] s).read .long _ _).read .long _ _
  refine ⟨_, (slotGuard_pass _ hslot).trans (returnFromException_aligned .rte ha), rfl,
    ⟨StatusReg.word_ofWord _, State.reg_setReg_same ..⟩,
    retired_retire .rte true ((read_params ..).trans (read_params ..)),
    ((((hkeep.setReg 15 _).setSr _).setPc _).mono (by simp) |>.retire .rte true).frame⟩

open Sys2Proof.Machine Sys2Proof.Claims in
/-- Settles O46, by the register that each form writes and the value it gets. -/
theorem controlRegisterMoves : Obligations.ControlRegisterMoves := by
  refine ⟨fun s m n => ?moves, fun s m ha => ?loads⟩
  case moves =>
    have hkeep := KeepsBut.refl (fun _ => True) [] s
    refine ⟨?ldcSr, ?ldcGbr, ?ldcVbr, ?ldsMach, ?ldsMacl, ?ldsPr, ?stcSr, ?stcGbr, ?stcVbr, ?stsMach,
      ?stsMacl, ?stsPr⟩
    case ldcSr => exact completes_done rfl rfl (hkeep.setSr _) (StatusReg.word_ofWord _)
    case ldcGbr => exact completes_done rfl rfl (hkeep.setGbr _) rfl
    case ldcVbr => exact completes_done rfl rfl (hkeep.setVbr _) rfl
    case ldsMach => exact completes_done rfl rfl (hkeep.setMach _) (setMach_machValue s _)
    case ldsMacl => exact completes_setMacl rfl fun t ht => ht
    case ldsPr => exact completes_done rfl rfl (hkeep.setPr _) rfl
    case stcSr => exact completes_setReg rfl fun t ht => ht ▸ s.sr.word_toNat
    case stsMach => exact completes_setReg rfl fun t ht => ht.trans (machValue_eq_keptHigh s)
    case stcGbr | stcVbr | stsMacl | stsPr => exact completes_setReg rfl fun t ht => ht
  case loads =>
    refine ⟨?ldcLSr, ?ldcLGbr, ?ldcLVbr, ?ldsLMach, ?ldsLMacl, ?ldsLPr⟩
    case ldcLSr =>
      exact completes_popControl (d := [.flagT, .flagS, .mask, .flagQ, .flagM]) rfl ha KeepsBut.setSr
        fun _ _ => StatusReg.word_ofWord _
    case ldcLGbr => exact completes_popControl (d := [.gbr]) rfl ha KeepsBut.setGbr fun _ _ => rfl
    case ldcLVbr => exact completes_popControl (d := [.vbr]) rfl ha KeepsBut.setVbr fun _ _ => rfl
    case ldsLMach =>
      exact completes_popControl (d := [.mach]) rfl ha KeepsBut.setMach
        fun t ht => ht ▸ setMach_machValue t _
    case ldsLMacl => exact completes_popControl (d := [.macl]) rfl ha KeepsBut.setMacl fun _ _ => rfl
    case ldsLPr => exact completes_popControl (d := [.pr]) rfl ha KeepsBut.setPr fun _ _ => rfl

open Sys2Proof.Machine Sys2Proof.Claims in
/-- Settles O22, by the update that each form is, SLEEP's under each policy. -/
theorem formsWithoutOperands : Obligations.FormsWithoutOperands := by
  intro s
  refine ⟨?clrt, ?sett, ?clrmac, ?nop, fun h => ?halt, fun h => ?spin⟩
  case clrt | sett => exact completes_setT rfl fun t ht => ht
  case clrmac => exact completes_setMac rfl
  case nop => exact completes_unchanged rfl
  case halt =>
    have hexec : exec .sleep s = done .sleep (s.setSleeping true) := by simp [exec, execSleep, h]
    exact completes_done hexec rfl ((KeepsBut.refl _ [] s).setSleeping true) rfl
  case spin =>
    have hexec : exec .sleep s = takenBranch .sleep (s.pc - 4) s := by simp [exec, execSleep, h]
    rw [show BitVec.ofInt 32 ((s.pc.toNat : Int) - 4) = s.pc - 4 from ofInt_toNat_sub_toNat s.pc 4]
    exact completes_takenBranch hexec

end

section
/-! PROOFS of the family 60_exceptions.md. The invariant of the machine: power-on reset meets it, and every
part of a cycle keeps it. The CPU's part leaves the hooks as they were (`State.Follows`); the environment
may change them, one address at a time. -/

namespace Sys2Proof.Machine

/-! ### Power-on reset -/

theorem DmaChannel.reset_legal (d : ChannelDraws) : (DmaChannel.reset d).Legal :=
  ⟨by simp [reset], by simp [reset, chcrStepReserved], tcrCount_le d.tcr⟩

theorem SciPort.reset_legal : SciPort.reset.Legal := by constructor <;> decide

theorem powerOn_chan (l : Launch) (c : Fin 4) :
    (Platform.powerOn l).chan c = .reset l.drawn.dma[c.val] := by
  fin_cases c <;> rfl

theorem powerOn_sci (l : Launch) (port : Port) : (Platform.powerOn l).sci port = .reset := by
  cases port <;> rfl

theorem powerOn_platInv (l : Launch) : (Platform.powerOn l).Inv where
  memory := Memory.load_wf _ l.image
  channels c := powerOn_chan l c ▸ DmaChannel.reset_legal _
  ports port := powerOn_sci l port ▸ SciPort.reset_legal
  ipre := by simp [Platform.powerOn]
  icr := by simp [Platform.powerOn]
  rxLines := ⟨rfl, rfl⟩

theorem powerOn_inv (l : Launch) : (State.powerOn l).Inv where
  plat := powerOn_platInv l
  mach hbits := by
    have hkept : (State.powerOn l).mach = keptMach .bits10 l.drawn.mach := congrArg (keptMach · _) hbits
    rw [hkept]
    exact keptMach_high _
  hooks := (addHooks l.hooks).1

/-! ### The CPU's part of a cycle -/

/-- What the CPU's part of a cycle answers (70_reset_and_hazards.md R500). -/
def State.cpuPart (s : State) : Answer := if (tick s).ready then readyPoint (tick s) else .next (tick s)

/-- A cycle that goes on is a CPU part that goes on, and then the rest of the cycle. -/
theorem step_eq_next {s u : State} (h : step s = .next u) :
    ∃ t, s.cpuPart = .next t ∧ endCycle t = some u := by
  change (match s.cpuPart with
    | .next t => closeCycle s.fault t
    | .fault (.raised r t) => stopCycle r t
    | .fault .endless => .fault .endless
    | .refused r => .refused r) = _ at h
  split at h
  · next t ht =>
    refine ⟨t, ht, ?_⟩
    unfold closeCycle at h
    split at h
    · cases h
    · next v hv =>
      split at h <;> cases h
      exact hv
  · next r t _ =>
    unfold stopCycle at h
    split at h <;> cases h
  · cases h
  · cases h

theorem Answer.All.imp {P Q : State → Prop} {r : Answer} (hr : r.All P) (h : ∀ s, P s → Q s) :
    r.All Q := by
  cases r with
  | next s => exact h s hr
  | fault f =>
    cases f with
    | raised r s => exact h s hr
    | endless => trivial
  | refused r => trivial

theorem tick_follows (s : State) : s.Follows (tick s) := by
  unfold tick
  split
  · exact .refl s
  · exact .of_eq rfl rfl

theorem takePending_follows (r : IrqRequest) (s : State) : (takePending r s).All s.Follows :=
  Run.All.imp (enterException_follows _ _ _) fun _ h => h.after rfl rfl

theorem acceptStage_follows (s : State) : (acceptStage s).All s.Follows := by
  unfold acceptStage
  split
  · exact Run.All.imp (enterException_follows _ _ _) fun _ h => h.after rfl rfl
  · split
    · exact .refl s
    · split
      · exact Run.All.imp (takePending_follows _ _) fun _ h => h.after rfl rfl
      · exact .refl s

theorem fetchStage_follows (s : State) : (fetchStage s).All s.Follows := by
  unfold fetchStage
  split
  · exact .of_plat (read_follows .word s.pc s.plat) rfl
  · exact .refl s

theorem executeWord_follows (w : Half) (s : State) : (executeWord w s).All s.Follows := by
  unfold executeWord
  split
  · exact .of_eq rfl rfl
  · next i _ =>
    have h := exec_follows i s
    generalize exec i s = answer at h ⊢
    cases answer with
    | next t => exact State.Follows.trans h (.of_eq rfl rfl)
    | fault f => exact h
    | refused r => exact h

/-- A byte that a handler stores in a buffer. -/
theorem poke_follows (p : Platform) (k : Nat) (b : Byte) :
    p.Follows { p with mem := p.mem.write (p.pageTable.unlisted k) k b } where
  params := rfl
  pageTable := rfl
  now := rfl
  hooks := rfl
  env := rfl
  inv h := { memory := Memory.write_wf h.memory, channels := h.channels
             ports := fun port => by cases port <;> [exact h.ports .sci0; exact h.ports .sci1]
             ipre := h.ipre, icr := h.icr, rxLines := h.rxLines }
  running _ _ ha hn := ⟨ha, hn⟩

theorem applyHostAction_follows (s : State) (a : HostAction) : s.Follows (applyHostAction s a) := by
  cases a with
  | setMach v => exact setMach_follows s v
  | poke a b =>
    unfold applyHostAction
    dsimp only
    split
    · exact .of_plat (poke_follows _ _ _) rfl
    · exact .refl s
  | _ => exact .of_eq rfl rfl

theorem applyHostActions_follows (l : List HostAction) (s : State) :
    s.Follows (l.foldl applyHostAction s) := by
  induction l generalizing s with
  | nil => exact .refl s
  | cons a l ih => exact (applyHostAction_follows s a).trans (ih _)

theorem runHook_follows (reply : HookReply) (s : State) : s.Follows (runHook reply s) :=
  State.Follows.trans (t := s.setPlat s.plat.draw.2) (.of_plat (draw_follows s.plat) rfl)
    (applyHostActions_follows reply.actions _)

/-- The state in which a word fetched as `x` executes (60_exceptions.md R350). -/
def State.atWord (s : State) (x : Pipeline) : State :=
  { s with curAddr := x.src, curWord := x.instruction }

theorem executeStage_invalid {x : Pipeline} (s : State) (h : x.valid = false) :
    executeStage x s = .next s := by
  simp [executeStage, h]

theorem executeStage_unhooked {x : Pipeline} {s : State} (hv : x.valid = true)
    (hh : hookAt x.src s.plat.hooks = none) :
    executeStage x s = executeWord x.instruction (s.atWord x) := by
  simp [executeStage, hv, hh, State.atWord]

theorem executeStage_follows (x : Pipeline) (s : State) : (executeStage x s).All s.Follows := by
  have hat : s.Follows (s.atWord x) := .of_eq rfl rfl
  cases hv : x.valid with
  | false => exact executeStage_invalid s hv ▸ .refl s
  | true =>
    cases hh : hookAt x.src s.plat.hooks with
    | none =>
      rw [executeStage_unhooked hv hh]
      exact (executeWord_follows _ _).imp fun _ => hat.trans
    | some h =>
      have hhook := hat.trans (runHook_follows (Config.hookReply h.handler x.src (s.atWord x)) _)
      rw [executeStage_hooked hv hh rfl rfl]
      split
      · exact hhook.trans (.of_eq rfl rfl)
      · exact (executeWord_follows _ _).imp fun _ => hhook.trans

theorem readyPoint_follows (s : State) : (readyPoint s).All s.Follows := by
  unfold readyPoint
  split
  · exact .refl s
  · have hfetched := Run.all_bind (acceptStage_follows s) fun _ => fetchStage_follows
    generalize ((acceptStage s).bind fun _ s => fetchStage s) = fetch at hfetched ⊢
    cases fetch with
    | ok x t => exact (executeStage_follows x t).imp fun _ => State.Follows.trans hfetched
    | addressError t => exact hfetched
    | raise r t => exact State.Follows.trans hfetched (.of_eq rfl rfl)
    | hang => trivial

theorem cpuPart_follows (s : State) : s.cpuPart.All s.Follows := by
  unfold State.cpuPart
  split
  · exact Answer.All.imp (readyPoint_follows _) fun _ => (tick_follows s).trans
  · exact tick_follows s

/-! ### The rest of a cycle -/

/-- The platform's invariant does not speak of the clock, the hooks and the schedule. -/
theorem Platform.Inv.replace {p : Platform} (h : p.Inv) (now : Nat) (hooks : List Hook)
    (env : List (Nat × EnvAction)) : Platform.Inv { p with now := now, hooks := hooks, env := env } :=
  { memory := h.memory, channels := h.channels
    ports := fun port => by cases port <;> [exact h.ports .sci0; exact h.ports .sci1]
    ipre := h.ipre, icr := h.icr, rxLines := h.rxLines }

theorem State.Inv.replace {s : State} (h : s.Inv) (now : Nat) {hooks : List Hook}
    (hhooks : HooksDistinct hooks) (env : List (Nat × EnvAction)) :
    (s.setPlat { s.plat with now := now, hooks := hooks, env := env }).Inv :=
  ⟨h.plat.replace now hooks env, h.mach, hhooks⟩

theorem fail_follows (s : State) (r : Option FaultReason) : s.Follows (s.fail r) := by
  cases r with
  | none => exact .refl s
  | some r =>
    unfold State.fail
    dsimp only
    split
    · exact .refl s
    · exact .of_eq rfl rfl

theorem schedulerStage_follows {s t : State} (h : schedulerStage s = some t) : s.Follows t := by
  obtain ⟨⟨p, r⟩, hp, rfl⟩ := Option.map_eq_some_iff.1 h
  have hfollows := fireDue_follows s.plat
  rw [hp] at hfollows
  exact State.Follows.trans (t := s.setPlat p) (.of_plat hfollows rfl) (fail_follows _ r)

/-- A request changes the held one at most (60_exceptions.md R357). -/
theorem assertIrq_eq (r : IrqRequest) (s : State) :
    assertIrq r s = { s with pending := (assertIrq r s).pending } := by
  unfold assertIrq
  split
  · rfl
  · split
    · rfl
    · split
      · rfl
      · split <;> rfl

theorem assertIrq_follows (r : IrqRequest) (s : State) : s.Follows (assertIrq r s) := by
  rw [assertIrq_eq]
  exact .of_eq rfl rfl

theorem applyEnvAction_inv {s : State} (a : EnvAction) (h : s.Inv) : (applyEnvAction s a).Inv := by
  cases a with
  | raise source =>
    unfold applyEnvAction
    dsimp only
    split
    · exact (assertIrq_follows _ s).inv h
    · exact h
  | addHook g => exact h.replace s.plat.now (addHook_distinct g h.hooks) s.plat.env
  | removeHook a => exact h.replace s.plat.now (removeHook_distinct a h.hooks) s.plat.env

theorem environmentStage_inv {s : State} (h : s.Inv) : (environmentStage s).Inv := by
  have hmoves : ∀ (l : List (Nat × EnvAction)) (t : State), t.Inv →
      (l.foldl (fun s e => applyEnvAction s e.2) t).Inv := by
    intro l
    induction l with
    | nil => exact fun _ ht => ht
    | cons e l ih => exact fun t ht => ih _ (applyEnvAction_inv e.2 ht)
  exact hmoves _ _ (h.replace s.plat.now h.hooks _)

theorem endCycle_inv {s u : State} (h : s.Inv) (hu : endCycle s = some u) : u.Inv := by
  obtain ⟨t, ht, rfl⟩ := Option.map_eq_some_iff.1 hu
  have henv := environmentStage_inv ((schedulerStage_follows ht).inv h)
  exact henv.replace _ henv.hooks _

end Sys2Proof.Machine

open Sys2Proof.Machine in
/-- Settles O6: the reset of every launch meets the invariant, and `State.reset` is that of the empty one. -/
theorem resetMeetsInvariant : Obligations.ResetMeetsInvariant :=
  ⟨powerOn_inv Launch.empty, powerOn_inv⟩

open Sys2Proof.Machine in
/-- Settles O7, by the CPU's part of the cycle and the rest of it. -/
theorem stepKeepsInvariant : Obligations.StepKeepsInvariant := by
  intro s u hs hstep
  obtain ⟨t, ht, hu⟩ := step_eq_next hstep
  have hfollows := cpuPart_follows s
  rw [ht] at hfollows
  exact endCycle_inv (State.Follows.inv hfollows hs) hu

end

section
/-! PROOFS of the family 60_exceptions.md. How an instruction leaves PC and the pipeline: each shared operation
either leaves both, or jumps, or stops with the registers as they were; then the pipeline entry between
cycles. -/

namespace Sys2Proof.Machine

open Sys2Proof.Claims

/-! ### How an instruction leaves PC and the pipeline -/

/-- An instruction that goes on from `s` leaves PC and the pipeline; or, only where `jumps` holds, it opens a
delay slot or drops the prefetched word; or it stops and has written no register, only what its bus
accesses left and cost (60_exceptions.md R353, R354). -/
inductive EndsControl (jumps : Prop) (s : State) : Answer → Prop where
  | kept {t : State} (pc : t.pc = s.pc) (pipe : t.pipe = s.pipe) : EndsControl jumps s (.next t)
  | slot {t : State} (hj : jumps) (opened : t.inDelaySlot = true) : EndsControl jumps s (.next t)
  | flushed {t : State} (hj : jumps) (dropped : t.pipe.valid = false) : EndsControl jumps s (.next t)
  | stopped (p : Platform) (cost : Nat) (r : FaultRecord) :
      EndsControl jumps s ((s.charge p cost).stop r)
  | endless : EndsControl jumps s (.fault .endless)

/-- The forms that may write PC or the pipeline: those that change PC, and SLEEP under `spin`. -/
def MayJump (i : Instr) (s : State) : Prop :=
  changesPc i = true ∨ i = .sleep ∧ s.plat.params.sleepPolicy = .spin

section

variable {i : Instr} {jumps : Prop} {s : State}

theorem EndsControl.unmoved (r : FaultRecord) : EndsControl jumps s (s.stop r) :=
  .stopped s.plat 0 r

theorem EndsControl.unpaid (p : Platform) (r : FaultRecord) :
    EndsControl jumps s ((s.setPlat p).stop r) :=
  .stopped p 0 r

theorem done_endsControl {t : State} (hpc : t.pc = s.pc) (hpipe : t.pipe = s.pipe) :
    EndsControl jumps s (done i t) :=
  .kept hpc hpipe

theorem takenBranch_endsControl (target : Word) (hj : jumps) :
    EndsControl jumps s (takenBranch i target s) :=
  .flushed hj rfl

theorem delayedBranch_endsControl (target : Word) (t : State) (hj : jumps) :
    EndsControl jumps s (delayedBranch i target t) :=
  .slot hj rfl

theorem slotGuard_endsControl {body : Answer} (h : EndsControl jumps s body) :
    EndsControl jumps s (slotGuard s body) := by
  unfold slotGuard
  split
  · exact .unmoved _
  · exact h

/-- A conditional branch, whichever way it goes. -/
theorem conditional_endsControl {c : Prop} [Decidable c] {a b : Answer} (ha : EndsControl jumps s a)
    (hb : EndsControl jumps s b) : EndsControl jumps s (slotGuard s (if c then a else b)) := by
  refine slotGuard_endsControl ?_
  split
  · exact ha
  · exact hb

theorem loadReg_endsControl (z : Size) (a : Word) (n : Reg) :
    EndsControl jumps s (loadReg i z a n s) := by
  obtain ⟨p, c, v, -, e | e | ⟨r, e⟩⟩ := loadReg_outcomes i z a n s <;> rw [e]
  · exact .kept rfl rfl
  · exact .kept rfl rfl
  · exact .unmoved r

theorem popReg_endsControl (z : Size) (m n : Reg) : EndsControl jumps s (popReg i z m n s) := by
  obtain ⟨p, c, v, -, e | e | ⟨r, e⟩⟩ := popReg_outcomes i z m n s <;> rw [e]
  · exact .kept rfl rfl
  · exact .kept rfl rfl
  · exact .unmoved r

theorem popControl_endsControl (m : Reg) {put : State → Word → State}
    (hput : ∀ t v, (put t v).pc = t.pc ∧ (put t v).pipe = t.pipe) :
    EndsControl jumps s (popControl i m put s) := by
  obtain ⟨p, c, v, -, e | e | ⟨r, e⟩⟩ := popControl_outcomes i m put s <;> rw [e]
  · exact .kept (hput _ v).1 (hput _ v).2
  · exact .kept rfl rfl
  · exact .unmoved r

theorem storeValue_endsControl (z : Size) (a v : Word) :
    EndsControl jumps s (storeValue i z a v s) := by
  obtain ⟨p, c, -, e | e | ⟨r, e⟩ | e⟩ := storeValue_outcomes i z a v s <;> rw [e]
  · exact .kept rfl rfl
  · exact .kept rfl rfl
  · exact .unpaid p r
  · exact .endless

theorem pushValue_endsControl (z : Size) (v : Word) (n : Reg) :
    EndsControl jumps s (pushValue i z v n s) := by
  obtain ⟨p, c, -, e | e | ⟨r, e⟩ | e⟩ := pushValue_outcomes i z v n s <;> rw [e]
  · exact .kept rfl rfl
  · exact .kept rfl rfl
  · exact .unpaid p r
  · exact .endless

theorem modifyByte_endsControl (a : Word) (f : Word → Word) {flags : Word → State → State}
    (hflags : ∀ v t, (flags v t).pc = t.pc ∧ (flags v t).pipe = t.pipe) :
    EndsControl jumps s (modifyByte i a f flags s) := by
  obtain ⟨p, c, v, -, e | ⟨r, e⟩ | e⟩ := modifyByte_outcomes i a f flags s <;> rw [e]
  · exact .kept (hflags v _).1 (hflags v _).2
  · exact .stopped p c r
  · exact .endless

theorem macOperands_endsControl (z : Size) (m n : Reg) {use : Word → Word → State → State}
    (huse : ∀ x y t, (use x y t).pc = t.pc ∧ (use x y t).pipe = t.pipe) :
    EndsControl jumps s (macOperands i z m n use s) := by
  obtain ⟨p, c, x, y, w, w', -, e | e | ⟨r, e⟩⟩ := macOperands_outcomes i z m n use s <;> rw [e]
  · exact .kept (huse x y _).1 (huse x y _).2
  · exact .kept rfl rfl
  · exact .stopped p c r

theorem returnFromException_endsControl (hj : jumps) :
    EndsControl jumps s (returnFromException i s) := by
  obtain ⟨p, c, target, sr, -, e | e | ⟨r, e⟩⟩ := returnFromException_outcomes i s <;> rw [e]
  · exact .slot hj rfl
  · exact .kept rfl rfl
  · exact .stopped p c r

theorem execTrapa_endsControl (imm : BitVec 8) (hj : jumps) :
    EndsControl jumps s (execTrapa imm s) := by
  refine slotGuard_endsControl ?_
  obtain ⟨p, c, target, -, e | ⟨r, e⟩ | e⟩ := enterException_outcomes imm none s <;> rw [e]
  · exact .flushed hj rfl
  · exact .stopped p c r
  · exact .endless

theorem execTstB_endsControl (imm : BitVec 8) : EndsControl jumps s (execTstB imm s) := by
  unfold execTstB
  rw [dataRead_aligned rfl]
  exact .kept rfl rfl

theorem execSleep_endsControl (hj : s.plat.params.sleepPolicy = .spin → jumps) :
    EndsControl jumps s (execSleep s) := by
  unfold execSleep
  split
  · exact .kept rfl rfl
  · next h => exact .flushed (hj h) rfl

end

theorem macWord_control (x y : Half) (s : State) :
    (macWord x y s).pc = s.pc ∧ (macWord x y s).pipe = s.pipe := by
  unfold macWord
  split
  · dsimp only
    split <;> exact ⟨rfl, rfl⟩
  · exact ⟨rfl, rfl⟩

/-- Only the PC-changing forms, and SLEEP under `spin`, write PC or the pipeline. -/
theorem exec_endsControl (i : Instr) (s : State) : EndsControl (MayJump i s) s (exec i s) := by
  cases i with
  | movBLoad | movBLoadDisp | movBLoadIdx | movBLoadGbr => exact loadReg_endsControl .byte _ _
  | movWPc | movLPc | movWLoad | movLLoad | movWLoadDisp | movLLoadDisp | movWLoadIdx | movLLoadIdx
  | movWLoadGbr | movLLoadGbr =>
    exact loadReg_endsControl _ _ _
  | movBPostInc => exact popReg_endsControl .byte _ _
  | movWPostInc | movLPostInc => exact popReg_endsControl _ _ _
  | movBStore | movWStore | movLStore | movBStoreDisp | movWStoreDisp | movLStoreDisp | movBStoreIdx
  | movWStoreIdx | movLStoreIdx | movBStoreGbr | movWStoreGbr | movLStoreGbr =>
    exact storeValue_endsControl _ _ _
  | movBPreDec | movWPreDec | movLPreDec | stcLSr | stcLGbr | stcLVbr | stsLMach | stsLMacl | stsLPr =>
    exact pushValue_endsControl _ _ _
  | andB | orB | xorB => exact modifyByte_endsControl _ _ fun _ _ => ⟨rfl, rfl⟩
  | tas =>
    exact modifyByte_endsControl (flags := fun v s => s.setT (v == 0)) _ _ fun _ _ => ⟨rfl, rfl⟩
  | tstB imm => exact execTstB_endsControl imm
  | macL =>
    exact macOperands_endsControl (use := fun x y s => s.setMac (macLSum s.sr.s s.mac x y)) _ _ _
      fun _ _ _ => ⟨rfl, rfl⟩
  | macW => exact macOperands_endsControl _ _ _ fun _ _ _ => macWord_control _ _ _
  | ldcLSr | ldcLGbr | ldcLVbr | ldsLMach | ldsLMacl | ldsLPr =>
    exact popControl_endsControl _ fun _ _ => ⟨rfl, rfl⟩
  | bra | braf | bsr | bsrf | jmp | jsr | rts =>
    exact slotGuard_endsControl (delayedBranch_endsControl _ _ (.inl rfl))
  | bf | bt =>
    exact conditional_endsControl (takenBranch_endsControl _ (.inl rfl)) (done_endsControl rfl rfl)
  | bfS | btS =>
    exact conditional_endsControl (delayedBranch_endsControl _ _ (.inl rfl)) (done_endsControl rfl rfl)
  | rte => exact slotGuard_endsControl (returnFromException_endsControl (.inl rfl))
  | trapa imm => exact execTrapa_endsControl imm (.inl rfl)
  | sleep => exact execSleep_endsControl fun h => .inr ⟨rfl, h⟩
  | _ => exact done_endsControl rfl rfl

/-- A fault that an instruction ends in has changed of the CPU the fault and the access cost alone. -/
theorem cpuFrame_stopped (s : State) (p : Platform) (cost : Nat) (r : FaultRecord) :
    CpuFrame [.fault, .execWait] s { s.charge p cost with fault := some r } := by
  intro x hx hcpu
  cases x with
  | byte | draws | envWrites | devices => cases hcpu
  | fault | execWait => exact absurd (by decide) hx
  | current => exact ⟨rfl, rfl⟩
  | _ => rfl

/-! ### The pipeline between cycles -/

/-- Outside a delay slot a valid pipeline entry was fetched from PC - 2 (60_exceptions.md R351). -/
def State.PipelineAtPc (s : State) : Prop :=
  s.pipe.valid = true → s.inDelaySlot = false → s.pipe.src = s.pc - 2

/-- The same pipeline, PC and delay slot. -/
structure State.SameFlow (s t : State) : Prop where
  pc   : t.pc = s.pc
  pipe : t.pipe = s.pipe
  slot : t.inDelaySlot = s.inDelaySlot

theorem State.SameFlow.trans {s t u : State} (h : s.SameFlow t) (h' : t.SameFlow u) : s.SameFlow u :=
  ⟨h'.pc.trans h.pc, h'.pipe.trans h.pipe, h'.slot.trans h.slot⟩

theorem State.SameFlow.pipelineAtPc {s t : State} (h : s.SameFlow t) (hs : s.PipelineAtPc) :
    t.PipelineAtPc := by
  unfold State.PipelineAtPc
  rw [h.pc, h.pipe, h.slot]
  exact hs

/-- A fetch leaves the entry of the word at PC, whether or not a slot is open. -/
theorem fetched_src (s : State) : (fetched s).pipe.src = (fetched s).pc - 2 := by
  change s.pc = s.pc + 2 - 2
  rw [BitVec.add_sub_cancel]

/-- Execution after a fetch keeps the entry beside PC: an instruction that moves PC opens a slot or drops
the entry. -/
theorem executeWord_pipelineAtPc {w : Half} {s t : State} (hs : s.pipe.src = s.pc - 2)
    (h : executeWord w s = .next t) : t.PipelineAtPc := by
  unfold executeWord at h
  split at h
  · cases h
  · next i _ =>
    have hends := exec_endsControl i s
    generalize exec i s = answer at h hends
    cases hends with
    | kept pc pipe =>
      cases h
      intro _ _
      rw [State.delay_pipe, State.delay_pc, pipe, pc, hs]
    | slot hj opened =>
      cases h
      exact fun _ hclosed => absurd (opened.symm.trans hclosed) (by decide)
    | flushed hj dropped =>
      cases h
      exact fun hv _ => absurd (dropped.symm.trans hv) (by decide)
    | stopped | endless => cases h

theorem executeStage_pipelineAtPc {x : Pipeline} {s t : State} (hs : s.pipe.src = s.pc - 2)
    (hhooks : s.plat.hooks = []) (h : executeStage x s = .next t) : t.PipelineAtPc := by
  cases hv : x.valid with
  | false =>
    rw [executeStage_invalid s hv] at h
    cases h
    exact fun _ _ => hs
  | true =>
    rw [executeStage_unhooked hv (by rw [hhooks]; rfl)] at h
    exact executeWord_pipelineAtPc (s := s.atWord x) hs h

/-- No address error arises in the acceptance part: an entry faults instead (60_exceptions.md R361). -/
theorem acceptStage_ne_addressError (s t : State) : acceptStage s ≠ .addressError t := by
  have hentry : ∀ (v : BitVec 8) (m : Option Nat) (u : State), enterException v m u ≠ .addressError t := by
    intro v m u h
    obtain ⟨p, c, target, -, e | ⟨r, e⟩ | e⟩ := enterException_outcomes v m u <;> cases e.symm.trans h
  unfold acceptStage
  split
  · exact hentry _ _ _
  · split
    · nofun
    · split
      · exact hentry _ _ _
      · nofun

/-- A fetch is made or faults (20_memory.md R76). -/
theorem fetchStage_outcomes (s : State) :
    fetchStage s = .ok s.pipe (fetched s) ∨ ∃ r, fetchStage s = .raise r s := by
  unfold fetchStage
  split
  · exact .inl rfl
  · exact .inr ⟨_, rfl⟩

/-- A ready point that goes on leaves a sleeping CPU alone, or accepts what is due, fetches and executes. -/
theorem readyPoint_eq_next {s t : State} (h : readyPoint s = .next t) :
    t = s ∨ ∃ u, acceptStage s = .ok () u ∧ executeStage u.pipe (fetched u) = .next t := by
  unfold readyPoint at h
  split at h
  · cases h
    exact .inl rfl
  · cases ha : acceptStage s with
    | addressError u => exact absurd ha (acceptStage_ne_addressError s u)
    | raise r u => rw [ha] at h; cases h
    | hang => rw [ha] at h; cases h
    | ok a u =>
      rw [ha, Run.bind_ok] at h
      obtain hf | ⟨r, hf⟩ := fetchStage_outcomes u <;> rw [hf] at h
      · exact .inr ⟨u, rfl, h⟩
      · cases h

theorem readyPoint_pipelineAtPc {s t : State} (hs : s.PipelineAtPc) (hhooks : s.plat.hooks = [])
    (h : readyPoint s = .next t) : t.PipelineAtPc := by
  obtain rfl | ⟨u, hu, hexec⟩ := readyPoint_eq_next h
  · exact hs
  · have hfollows := acceptStage_follows s
    rw [hu] at hfollows
    refine executeStage_pipelineAtPc (fetched_src u) ?_ hexec
    rw [fetched_hooks, State.Follows.plat hfollows |>.hooks, hhooks]

theorem tick_sameFlow (s : State) : s.SameFlow (tick s) := by
  unfold tick
  split <;> exact ⟨rfl, rfl, rfl⟩

theorem cpuPart_pipelineAtPc {s t : State} (hs : s.PipelineAtPc) (hhooks : s.plat.hooks = [])
    (h : s.cpuPart = .next t) : t.PipelineAtPc := by
  have htick := (tick_sameFlow s).pipelineAtPc hs
  unfold State.cpuPart at h
  split at h
  · exact readyPoint_pipelineAtPc htick (((tick_follows s).plat.hooks).trans hhooks) h
  · cases h
    exact htick

/-! ### The rest of a cycle leaves PC and the pipeline alone -/

theorem fail_sameFlow (s : State) (r : Option FaultReason) : s.SameFlow (s.fail r) := by
  cases r with
  | none => exact ⟨rfl, rfl, rfl⟩
  | some r =>
    unfold State.fail
    dsimp only
    split <;> exact ⟨rfl, rfl, rfl⟩

theorem applyEnvAction_sameFlow (s : State) (a : EnvAction) : s.SameFlow (applyEnvAction s a) := by
  cases a with
  | raise source =>
    unfold applyEnvAction
    dsimp only
    split
    · rw [assertIrq_eq]
      exact ⟨rfl, rfl, rfl⟩
    · exact ⟨rfl, rfl, rfl⟩
  | addHook g => exact ⟨rfl, rfl, rfl⟩
  | removeHook a => exact ⟨rfl, rfl, rfl⟩

theorem applyEnvActions_sameFlow (l : List (Nat × EnvAction)) (s : State) :
    s.SameFlow (l.foldl (fun s e => applyEnvAction s e.2) s) := by
  induction l generalizing s with
  | nil => exact ⟨rfl, rfl, rfl⟩
  | cons e l ih => exact (applyEnvAction_sameFlow s e.2).trans (ih _)

theorem environmentStage_sameFlow (s : State) : s.SameFlow (environmentStage s) := by
  unfold environmentStage
  refine State.SameFlow.trans ?_ (applyEnvActions_sameFlow _ _)
  exact ⟨rfl, rfl, rfl⟩

theorem endCycle_sameFlow {s u : State} (h : endCycle s = some u) : s.SameFlow u := by
  obtain ⟨t, ht, rfl⟩ := Option.map_eq_some_iff.1 h
  obtain ⟨⟨p, r⟩, -, rfl⟩ := Option.map_eq_some_iff.1 ht
  have hend := (fail_sameFlow (s.setPlat p) r).trans (environmentStage_sameFlow _)
  exact ⟨hend.pc, hend.pipe, hend.slot⟩

end Sys2Proof.Machine

open Sys2Proof.Machine in
/-- Settles O8: after a fetch the entry stands beside PC, and nothing after it separates the two. -/
theorem pipelineFollowsPc : Obligations.PipelineFollowsPc := by
  intro s u hhooks hs hstep
  obtain ⟨t, ht, hu⟩ := step_eq_next hstep
  exact (endCycle_sameFlow hu).pipelineAtPc (cpuPart_pipelineAtPc hs hhooks ht)

open Sys2Proof.Machine in
/-- Settles O26, from how every instruction leaves PC and the pipeline (`exec_endsControl`). -/
theorem onlyBranchesWritePc : Obligations.OnlyBranchesWritePc := by
  intro i s t
  have hends := exec_endsControl i s
  refine ⟨fun ht hi hsleep => ?next, fun r ht => ?fault⟩
  case next =>
    have hstays : ¬ MayJump i s := by
      rintro (hj | ⟨rfl, hspin⟩)
      · exact absurd (hi.symm.trans hj) (by decide)
      · exact absurd ((hsleep rfl).symm.trans hspin) (by decide)
    rw [ht] at hends
    cases hends with
    | kept pc pipe => exact ⟨pc, pipe⟩
    | slot hj | flushed hj => exact absurd hj hstays
  case fault =>
    generalize exec i s = answer at ht hends
    cases hends with
    | stopped p cost r' =>
      cases ht
      exact ⟨rfl, cpuFrame_stopped s p cost r⟩
    | kept | slot | flushed | endless => cases ht

end

section
/-! PROOFS of the family 60_exceptions.md. A ready point by what its stages answer: the acceptance test, the
fetch of the word at PC, and the step that a dispatch or a sleep makes. -/

namespace Sys2Proof.Machine

open Sys2Proof.Claims

/-! ### Acceptance -/

theorem addressErrorDue_iff {s : State} :
    (!s.sleeping && s.pendingAddressError && s.pipe.valid && !s.inDelaySlot) = true ↔
      s.sleeping = false ∧ AddressErrorDue s := by
  simp [AddressErrorDue, and_assoc]

theorem acceptStage_due {s : State} (hawake : s.sleeping = false) (h : AddressErrorDue s) :
    acceptStage s =
      enterException s.plat.params.addressErrorVector none { s with pendingAddressError := false } := by
  rw [acceptStage, if_pos (addressErrorDue_iff.2 ⟨hawake, h⟩)]

theorem not_addressErrorDue {s : State} (h : s.sleeping = false → ¬ AddressErrorDue s) :
    ¬ (!s.sleeping && s.pendingAddressError && s.pipe.valid && !s.inDelaySlot) = true :=
  fun hdue => h (addressErrorDue_iff.1 hdue).1 (addressErrorDue_iff.1 hdue).2

theorem acceptStage_idle {s : State} (hp : s.pending = none)
    (h : s.sleeping = false → ¬ AddressErrorDue s) : acceptStage s = .ok () s := by
  rw [acceptStage, if_neg (not_addressErrorDue h), hp]

theorem acceptStage_accepted {s : State} {r : IrqRequest} (hp : s.pending = some r)
    (hr : Acceptable s r) (h : s.sleeping = false → ¬ AddressErrorDue s) :
    acceptStage s =
      enterException r.vector (some r.priority) { s with pending := none, sleeping := false } := by
  rw [acceptStage, if_neg (not_addressErrorDue h), hp]
  exact if_pos (canAccept_iff.2 hr)

theorem acceptStage_held {s : State} {r : IrqRequest} (hp : s.pending = some r)
    (hr : ¬ Acceptable s r) (h : s.sleeping = false → ¬ AddressErrorDue s) :
    acceptStage s = .ok () s := by
  rw [acceptStage, if_neg (not_addressErrorDue h), hp]
  exact if_neg (mt canAccept_iff.1 hr)

/-- A CPU stays asleep exactly while no held request passes the test. -/
theorem staysAsleep_iff {s : State} :
    s.staysAsleep = true ↔ s.sleeping = true ∧ ∀ r, s.pending = some r → ¬ Acceptable s r := by
  cases hp : s.pending <;> simp [State.staysAsleep, hp, ← canAccept_iff]

/-! ### Fetch -/

theorem fetchStage_odd {s : State} (h : s.pc.toNat % 2 = 1) :
    fetchStage s = .raise { reason := .misaligned s.pc 2, at_ := s.pc } s := by
  have hodd : ¬ Size.word.aligned s.pc = true := by
    rw [Size.aligned_iff]
    exact fun he => by simp [Size.bytes, h] at he
  rw [fetchStage, if_neg hodd]

/-- The word of a buffer is its two bytes, the first the most significant. -/
theorem read_word_buffer {p : Platform} {a : Word} {e : PageEntry}
    (h : p.target (physical a) = .buffer e) :
    (p.read .word a).1.setWidth 16 = byteAt p (place p a) ++ byteAt p (place p a + 1) := by
  rw [read_buffer .word h]
  apply BitVec.eq_of_toNat_eq
  have hhigh := (byteAt p (place p a)).isLt
  have hlow := (byteAt p (place p a + 1)).isLt
  rw [BitVec.toNat_append, ← Nat.shiftLeft_add_eq_or_of_lt hlow, Nat.shiftLeft_eq, BitVec.toNat_setWidth]
  change (joinBytes [byteAt p (place p a), byteAt p (place p a + 1)]).toNat % 2 ^ 16 = _
  rw [joinBytes_two]
  omega

/-! ### The step of a ready point -/

/-- An odd PC ends a ready point in the fault of its fetch, once the acceptance is done. -/
theorem readyPoint_odd {s t : State} (h : ¬ s.staysAsleep = true) (ha : acceptStage s = .ok () t)
    (hpc : t.pc.toNat % 2 = 1) :
    readyPoint s = t.stop { reason := .misaligned t.pc 2, at_ := t.pc } := by
  rw [readyPoint, if_neg h, ha, Run.bind_ok, fetchStage_odd hpc]

/-- An entry that is done leaves no prefetched word (60_exceptions.md R360). -/
theorem enterException_flushed {v : BitVec 8} {m : Option Nat} {s t : State}
    (h : enterException v m s = .ok () t) : t.pipe.valid = false := by
  obtain ⟨p, c, target, -, e | ⟨r, e⟩ | e⟩ := enterException_outcomes v m s <;> rw [e] at h
  · cases h
    rw [State.raiseMask_pipe]
    rfl
  · cases h
  · cases h

theorem readyPoint_dispatched {s t : State} {v : BitVec 8} {m : Option Nat} {u : State}
    (h : ¬ s.staysAsleep = true) (ha : acceptStage s = enterException v m u)
    (ht : enterException v m u = .ok () t) (hpc : t.pc.toNat % 2 = 0) :
    readyPoint s = .next (fetched t) := by
  rw [readyPoint, if_neg h, ha, ht, Run.bind_ok, fetchStage_even hpc]
  exact executeStage_invalid _ (enterException_flushed ht)

theorem readyPoint_entryFault {s t : State} {r : FaultRecord} (h : ¬ s.staysAsleep = true)
    (ha : acceptStage s = .raise r t) : readyPoint s = t.stop r := by
  rw [readyPoint, if_neg h, ha]
  rfl

/-- What is due keeps a CPU from sleeping on. -/
theorem awake_of_accepted {s : State} {r : IrqRequest} (hp : s.pending = some r)
    (hr : Acceptable s r) : ¬ s.staysAsleep = true :=
  fun h => (staysAsleep_iff.1 h).2 r hp hr

theorem awake_of_not_sleeping {s : State} (h : s.sleeping = false) : ¬ s.staysAsleep = true :=
  fun ha => absurd ((staysAsleep_iff.1 ha).1.symm.trans h) nofun

end Sys2Proof.Machine

open Sys2Proof Sys2Proof.Machine Sys2Proof.Claims in
/-- Settles O9: the word decodes to the instruction, and no hook stands in its way after the fetch. -/
theorem stepRunsTheDecodedInstruction : Obligations.StepRunsTheDecodedInstruction := by
  intro s i hready hawake hn hpc hv hh hi
  have hhook : hookAt s.pipe.src (fetched (waited s)).plat.hooks = none := fetched_hooks (waited s) ▸ hh
  have hdecode : decodeFor (executing s).plat.params.sh2Extensions s.pipe.instruction = some i :=
    (fetched_params (waited s)) ▸ holding_iff.1 hi
  rw [step_atReadyPoint hready, readyPoint_nothingTaken (s := waited s) hawake hn hpc]
  exact (congrArg closed (executeStage_unhooked hv hhook)).trans (closed_executeWord hdecode)

open Sys2Proof Sys2Proof.Machine Sys2Proof.Claims in
/-- Settles O10, by the parity of PC. -/
theorem fetchAtPc : Obligations.FetchAtPc := by
  intro s hready hawake hn
  refine ⟨fun hpc hv => ⟨?_, fun e he => ?_⟩, fun hpc => ?_⟩
  · rw [step_atReadyPoint hready, readyPoint_nothingTaken (s := waited s) hawake hn hpc]
    exact congrArg closed (executeStage_invalid _ hv)
  · exact congrArg (fun w => Pipeline.mk w s.pc true) (read_word_buffer he)
  · rw [step_atReadyPoint hready]
    exact congrArg closed (readyPoint_odd (s := waited s) (awake_of_not_sleeping hawake)
      (acceptStage_nothingTaken hn) hpc)

open Sys2Proof Sys2Proof.Machine Sys2Proof.Claims in
/-- Settles O11. -/
theorem requestAcceptance : Obligations.RequestAcceptance :=
  fun _ _ hp hdue => ⟨fun hr => acceptStage_accepted hp hr hdue, fun hr => acceptStage_held hp hr hdue⟩

open Sys2Proof Sys2Proof.Machine Sys2Proof.Claims in
/-- Settles O12: such a CPU stays asleep at its ready point. -/
theorem sleepingCpuWaits : Obligations.SleepingCpuWaits := by
  intro s hready hsleep hn
  have hstays : (waited s).staysAsleep = true := staysAsleep_iff.2 ⟨hsleep, hn⟩
  rw [step_atReadyPoint hready, readyPoint, if_pos hstays]
  rfl

open Sys2Proof Sys2Proof.Machine Sys2Proof.Claims in
/-- Settles O13: either dispatch is an entry (`acceptStage_due`, `acceptStage_accepted`), and the step after it
goes by how the entry ended and by the parity of the handler's address. -/
theorem dispatchThenFetch : Obligations.DispatchThenFetch := by
  refine ⟨fun s => acceptStage_due, fun s => acceptStage_idle, fun s u v m hready hdispatch => ?_⟩
  have hentry : ¬ (waited s).staysAsleep = true ∧ acceptStage (waited s) = enterException v m u := by
    obtain ⟨hawake, hdue, rfl, rfl, rfl⟩ | ⟨hdue, r, hp, hr, rfl, rfl, rfl⟩ := hdispatch
    · exact ⟨awake_of_not_sleeping hawake, acceptStage_due (s := waited s) hawake hdue⟩
    · exact ⟨awake_of_accepted hp hr, acceptStage_accepted (s := waited s) hp hr hdue⟩
  obtain ⟨hawake, haccept⟩ := hentry
  rw [step_atReadyPoint hready]
  refine ⟨fun t ht => ⟨fun hpc => ?_, fun hpc => ?_⟩, fun r t ht => ?_⟩
  · exact congrArg closed (readyPoint_dispatched hawake haccept ht hpc)
  · exact congrArg closed (readyPoint_odd hawake (haccept.trans ht) hpc)
  · exact congrArg closed (readyPoint_entryFault hawake (haccept.trans ht))

end

section
/-! PROOFS of the family 60_exceptions.md. The request slot and the environment's schedule; then an exception
entry with its mask, and the accesses at which it faults. -/

namespace Sys2Proof.Machine

open Sys2Proof.Claims

/-! ### The environment's schedule -/

/-- The state with other moves of the environment still to make. -/
def State.withEnv (s : State) (env : List (Nat × EnvAction)) : State :=
  s.setPlat { s.plat with env := env }

theorem withEnv_self (s : State) : s.withEnv s.plat.env = s := rfl

theorem assertIrq_withEnv (r : IrqRequest) (s : State) (env : List (Nat × EnvAction)) :
    assertIrq r (s.withEnv env) = (assertIrq r s).withEnv env := by
  cases hf : s.fault with
  | some f => simp [assertIrq, State.withEnv, State.setPlat, hf]
  | none =>
    cases hp : s.pending with
    | none => simp [assertIrq, State.withEnv, State.setPlat, hf, hp]
    | some held =>
      cases hpol : s.plat.params.irqSlotPolicy with
      | overwrite => simp [assertIrq, State.withEnv, State.setPlat, hf, hp, hpol]
      | keepHigher =>
        by_cases hle : held.priority ≤ r.priority <;>
          simp [assertIrq, State.withEnv, State.setPlat, hf, hp, hpol, hle]

/-- A move neither reads nor changes the moves still to make, nor the clock. -/
theorem applyEnvAction_withEnv (s : State) (env : List (Nat × EnvAction)) (a : EnvAction) :
    applyEnvAction (s.withEnv env) a = (applyEnvAction s a).withEnv env := by
  cases a with
  | raise source =>
    unfold applyEnvAction
    dsimp only
    rw [apply_ite (State.withEnv · env), ← assertIrq_withEnv]
    cases source <;> rfl
  | addHook h => rfl
  | removeHook a => rfl

theorem applyEnvAction_schedule (s : State) (a : EnvAction) :
    (applyEnvAction s a).plat.env = s.plat.env ∧ (applyEnvAction s a).plat.now = s.plat.now := by
  cases a with
  | raise source =>
    unfold applyEnvAction
    dsimp only
    split
    · rw [assertIrq_eq]
      exact ⟨rfl, rfl⟩
    · exact ⟨rfl, rfl⟩
  | addHook h => exact ⟨rfl, rfl⟩
  | removeHook a => exact ⟨rfl, rfl⟩

/-- The moves of a list, in order. -/
def State.makeMoves (s : State) (l : List (Nat × EnvAction)) : State :=
  l.foldl (fun s e => applyEnvAction s e.2) s

theorem makeMoves_withEnv (l env : List (Nat × EnvAction)) (s : State) :
    (s.withEnv env).makeMoves l = (s.makeMoves l).withEnv env := by
  induction l generalizing s with
  | nil => rfl
  | cons e l ih =>
    change ((applyEnvAction (s.withEnv env) e.2).makeMoves l) = _
    rw [applyEnvAction_withEnv, ih]
    rfl

/-- The moves that are due at the time `now`. -/
def dueMoves (now : Nat) (env : List (Nat × EnvAction)) : List (Nat × EnvAction) :=
  env.filter fun e => decide (e.1 ≤ now)

/-- The moves that are not yet due at the time `now`. -/
def laterMoves (now : Nat) (env : List (Nat × EnvAction)) : List (Nat × EnvAction) :=
  env.filter fun e => decide (now < e.1)

/-- The environment's part makes the due moves and keeps the later ones. -/
theorem environmentStage_eq (s : State) :
    environmentStage s =
      (s.makeMoves (dueMoves s.plat.now s.plat.env)).withEnv (laterMoves s.plat.now s.plat.env) :=
  makeMoves_withEnv _ _ s

theorem environmentStage_withEnv (s : State) (env : List (Nat × EnvAction)) :
    environmentStage (s.withEnv env) =
      (s.makeMoves (dueMoves s.plat.now env)).withEnv (laterMoves s.plat.now env) := by
  rw [environmentStage_eq, makeMoves_withEnv]
  rfl

section

variable {s : State} {at_ : Nat} {move : EnvAction} {rest : List (Nat × EnvAction)}

theorem environmentStage_due (h : s.plat.env = (at_, move) :: rest) (hdue : at_ ≤ s.plat.now) :
    environmentStage s = environmentStage (applyEnvAction (s.withEnv rest) move) := by
  have hd : dueMoves s.plat.now s.plat.env = (at_, move) :: dueMoves s.plat.now rest := by
    rw [h]
    exact List.filter_cons_of_pos (decide_eq_true hdue)
  have hl : laterMoves s.plat.now s.plat.env = laterMoves s.plat.now rest := by
    rw [h]
    exact List.filter_cons_of_neg (by simpa using hdue)
  rw [environmentStage_eq, hd, hl, applyEnvAction_withEnv, environmentStage_withEnv,
    (applyEnvAction_schedule s move).2]
  rfl

theorem environmentStage_later (h : s.plat.env = (at_, move) :: rest) (hlater : s.plat.now < at_) :
    environmentStage s =
      (environmentStage (s.withEnv rest)).withEnv
        ((at_, move) :: (environmentStage (s.withEnv rest)).plat.env) := by
  have hd : dueMoves s.plat.now s.plat.env = dueMoves s.plat.now rest := by
    rw [h]
    exact List.filter_cons_of_neg (by simpa using hlater)
  have hl : laterMoves s.plat.now s.plat.env = (at_, move) :: laterMoves s.plat.now rest := by
    rw [h]
    exact List.filter_cons_of_pos (decide_eq_true hlater)
  rw [environmentStage_eq, hd, hl, environmentStage_withEnv]
  rfl

end

/-- The field of IRQk, counted from the top of IPRA for k < 4 and of IPRB for the others
(60_exceptions.md R371). -/
theorem irqPriority_toNat (c : Intc) (k : Fin 8) :
    (c.irqPriority k).toNat =
      (if k.val < 4 then c.ipra.toNat / 16 ^ (3 - k.val) else c.iprb.toNat / 16 ^ (7 - k.val)) % 16 := by
  have hfield : ∀ (r : Half) (j : Nat), 12 - 4 * (k.val % 4) = 4 * j →
      (r.extractLsb' (12 - 4 * (k.val % 4)) 4).toNat = r.toNat / 16 ^ j % 16 := by
    intro r j hj
    rw [hj, BitVec.extractLsb'_toNat, Nat.shiftRight_eq_div_pow, Nat.pow_mul]
  unfold Intc.irqPriority
  split
  · exact hfield _ _ (by omega)
  · exact hfield _ _ (by omega)

/-! ### The entry of an exception -/

theorem KeepsBut.raiseMask {P : Part → Prop} {c : List Part} {s t : State} (h : KeepsBut P c s t)
    (m : Option Nat) : KeepsBut P (.mask :: c) s (t.raiseMask m) := by
  refine h.update (d := [.mask]) fun x => ?_
  cases m with
  | none => exact .inr id
  | some p =>
    cases x with
    | mask => exact .inl (by decide)
    | _ => exact .inr id

theorem raiseMask_mask (s : State) (m : Option Nat) :
    (s.raiseMask m).sr.i.toNat =
      match m with
      | none => s.sr.i.toNat
      | some p => if p < 15 then p else 15 := by
  cases m with
  | none => rfl
  | some p =>
    rw [State.raiseMask_sr_some, mask_toNat]
    dsimp only
    split <;> omega

/-- Decrementing by a whole access keeps a misaligned address misaligned. -/
theorem aligned_decremented_iff {a : Word} : Aligned .long (decremented .long a) ↔ Aligned .long a := by
  simp only [Aligned, decremented, Size.bytes]
  bv_omega

theorem entryWrite_misaligned {a : Word} (v : Word) (s : State) (h : ¬ Aligned .long a) :
    entryWrite a v s = .raise { reason := .misaligned a 4, at_ := a } s :=
  if_neg (by rwa [Size.aligned_iff])

theorem entryRead_misaligned {a : Word} (s : State) (h : ¬ Aligned .long a) :
    entryRead a s = .raise { reason := .misaligned a 4, at_ := a } s :=
  if_neg (by rwa [Size.aligned_iff])

theorem entryWrite_readOnly {s : State} {a : Word} (v : Word) (ha : Aligned .long a)
    (h : ReadOnly s.plat a) : entryWrite a v s = .raise { reason := .romWrite a, at_ := a } s := by
  rw [entryWrite, if_pos (Size.aligned_iff.2 ha),
    show s.plat.write .long a v = _ from writeWith_readOnly checkActivations .long v h]
  rfl

theorem push_readOnly {s : State} {b : Word} (h : ReadOnly s.plat b) (a v : Word) :
    ReadOnly (s.push a v).plat b :=
  h.imp fun _ he => ⟨(Platform.target_withMem _ _).trans he.1, he.2⟩

section

variable {s : State}

theorem enterException_firstPush_raises {v : BitVec 8} {m : Option Nat} {r : FaultRecord}
    (h : entryWrite (decremented .long (s.reg 15)) s.srWord s = .raise r s) :
    enterException v m s = .raise r s := by
  simp only [enterException, ← decremented_long, h, Run.bind_raise]

variable (hsp : Aligned .long (s.reg 15)) (hw₁ : Writable s.plat (decremented .long (s.reg 15)))

include hsp hw₁

theorem enterException_secondPush_readOnly {v : BitVec 8} {m : Option Nat}
    (h : ReadOnly s.plat (decremented .long (decremented .long (s.reg 15)))) :
    enterException v m s =
      .raise { reason := .romWrite (decremented .long (decremented .long (s.reg 15)))
               at_ := decremented .long (decremented .long (s.reg 15)) }
        (s.push (decremented .long (s.reg 15)) s.srWord) := by
  have hal₁ := aligned_decremented hsp
  simp only [enterException, ← decremented_long]
  rw [entryWrite_writable _ hal₁ hw₁, Run.bind_ok]
  rw [entryWrite_readOnly _ (aligned_decremented hal₁) (push_readOnly h _ _), Run.bind_raise]

theorem enterException_vector_misaligned {v : BitVec 8} {m : Option Nat}
    (hw₂ : Writable s.plat (decremented .long (decremented .long (s.reg 15))))
    (hv : ¬ Aligned .long (s.vectorAt v)) :
    enterException v m s =
      .raise { reason := .misaligned (s.vectorAt v) 4, at_ := s.vectorAt v } s.pushed := by
  have hal₁ := aligned_decremented hsp
  simp only [enterException, ← decremented_long, vectorAt_eq]
  rw [entryWrite_writable _ hal₁ hw₁, Run.bind_ok]
  rw [entryWrite_writable _ (aligned_decremented hal₁) (push_writable hw₂ _ _), Run.bind_ok]
  change (entryRead (s.vectorAt v) s.pushed).bind _ = _
  rw [entryRead_misaligned _ hv, Run.bind_raise]

end

/-- Both pushes of an entry change their bytes and the access cost alone. -/
theorem pushed_keepsBut {s : State} (hc : Canonical s.plat) :
    KeepsBut s.OutsidePushes [.execWait, .execWait] s s.pushed :=
  ((KeepsBut.refl s.OutsidePushes [] s).push hc _ s.srWord fun k hk => (hk k rfl).1).push
    (push_canonical hc _ _) _ (s.pc - 2) fun k hk => (hk k rfl).2

end Sys2Proof.Machine

open Sys2Proof.Machine in
/-- Settles O16, by whether the slot is empty, and by the policy. -/
theorem assertIrqPolicy : Obligations.AssertIrqPolicy := by
  intro s new hf
  refine ⟨assertIrq_eq new s, fun hp => ?_, fun held hp => ⟨fun hpol => ?_, fun hpol => ?_⟩⟩
  · simp [assertIrq, hf, hp]
  · simp [assertIrq, hf, hp, hpol]
  · by_cases hle : held.priority ≤ new.priority <;> simp [assertIrq, hf, hp, hpol, hle]

open Sys2Proof.Machine in
/-- Settles O17, by whether the first move is due, and by the move that is made. -/
theorem environmentSchedule : Obligations.EnvironmentSchedule := by
  refine ⟨fun s h => ?none, fun s at_ move rest h => ⟨environmentStage_due h, environmentStage_later h⟩,
    fun s source => ?raised, fun s h a b => ⟨hookAt_addHook h b _, hookAt_removeHook a b _⟩⟩
  case none =>
    rw [environmentStage_eq, h]
    change s.withEnv [] = s
    rw [← h, withEnv_self]
  case raised =>
    have hrequest : applyEnvAction s (.raise source) =
        if source ∈ s.plat.params.envIrq then assertIrq (envRequest s.plat source) s else s := by
      simp [applyEnvAction]
    rw [hrequest]
    cases source with
    | nmi => rfl
    | irq k =>
      rw [envRequest, irqPriority_toNat]

open Sys2Proof.Machine Sys2Proof.Claims in
/-- Settles O18: the entry that keeps the mask, and then the mask. -/
theorem exceptionEntry : Obligations.ExceptionEntry := by
  intro s v m sp at1 at2 vector hc hsp hv hw₁ hw₂
  have hplat := State.raiseMask_plat (s.entered v) m
  refine ⟨_, enterException_writable hsp hw₁ hw₂ m hv,
    (apart_decremented (aligned_decremented hsp) hw₁ hw₂).symm, ?sr, ?pc, ?_, ?vector, ?_,
    raiseMask_mask _ m, ?_⟩
  case sr => exact hplat ▸ holds_entered (pushed_holds_sr hc hsp hw₁ hw₂) v
  case pc => exact hplat ▸ holds_entered (pushed_holds_pc hc) v
  case vector => rw [hplat, State.raiseMask_pc, entered_pc]; rfl
  · rw [State.raiseMask_reg, entered_reg_sp]
  · rw [State.raiseMask_pipe]; rfl
  · exact ((entered_keepsBut hc v).raiseMask m).mono (by simp)

open Sys2Proof.Machine Sys2Proof.Claims in
/-- Settles O19, by the access that faults: the first push, the second, or the vector read. -/
theorem entryFaults : Obligations.EntryFaults := by
  intro s v m at1 at2 vector
  refine ⟨fun hsp => ?_, fun hsp hrom => ?_, fun hsp hc hw₁ hrom => ?_, fun hsp hc hw₁ hw₂ hv => ?_⟩
  · exact enterException_firstPush_raises (entryWrite_misaligned _ s (mt aligned_decremented_iff.1 hsp))
  · exact enterException_firstPush_raises (entryWrite_readOnly _ (aligned_decremented hsp) hrom)
  · refine ⟨_, enterException_secondPush_readOnly hsp hw₁ hrom, holds_push hc _ _, ?_⟩
    exact (KeepsBut.refl _ [] s).push hc at1 s.srWord fun k hk => hk k rfl
  · refine ⟨_, enterException_vector_misaligned hsp hw₁ hw₂ hv, pushed_holds_sr hc hsp hw₁ hw₂,
      pushed_holds_pc hc, fun x hx => pushed_keepsBut hc x (by simpa using hx)⟩

end

section
/-! PROOFS of the family 60_exceptions.md. The on-chip block: the layout of its registers, an access that
lies in one register, and drawn bytes; then the registers of the interrupt controller and of the DMA
controller. -/

namespace Sys2Proof.Machine

open Sys2Proof.Claims

/-! ### Values by their bytes -/

/-- Bytes that are the digits of a number below `256 ^ n` join to it. -/
theorem joinBytes_eq (z : Size) {b : Nat → Byte} {x : Nat} (hx : x < 256 ^ z.bytes)
    (hb : ∀ k, k < z.bytes → (b k).toNat = x / 256 ^ (z.bytes - 1 - k) % 256) :
    (joinBytes ((List.range z.bytes).map b)).toNat = x := by
  cases z with
  | byte =>
    refine (joinBytes_one (b 0)).trans ?_
    have h0 := hb 0 (by decide)
    simp only [Size.bytes, Nat.reduceSub, Nat.reducePow, Nat.div_one] at hx h0
    omega
  | word =>
    refine (joinBytes_two (b 0) (b 1)).trans ?_
    have h0 := hb 0 (by decide)
    have h1 := hb 1 (by decide)
    simp only [Size.bytes, Nat.reduceSub, Nat.reducePow, Nat.div_one] at hx h0 h1
    omega
  | long =>
    refine (joinBytes_four (b 0) (b 1) (b 2) (b 3)).trans ?_
    have h0 := hb 0 (by decide)
    have h1 := hb 1 (by decide)
    have h2 := hb 2 (by decide)
    have h3 := hb 3 (by decide)
    simp only [Size.bytes, Nat.reduceSub, Nat.reducePow, Nat.div_one] at hx h0 h1 h2 h3
    omega

/-- The digits of joined bytes are the bytes. -/
theorem joinBytes_digits (z : Size) (b : Nat → Byte) :
    (joinBytes ((List.range z.bytes).map b)).toNat < 256 ^ z.bytes ∧
      ∀ k, k < z.bytes →
        (joinBytes ((List.range z.bytes).map b)).toNat / 256 ^ (z.bytes - 1 - k) % 256 =
          (b k).toNat := by
  have h0 := (b 0).isLt
  have h1 := (b 1).isLt
  have h2 := (b 2).isLt
  have h3 := (b 3).isLt
  cases z with
  | byte =>
    rw [show (joinBytes ((List.range Size.byte.bytes).map b)).toNat = _ from joinBytes_one _]
    refine ⟨h0, fun k hk => ?_⟩
    simp only [Size.bytes] at hk ⊢
    interval_cases k
    omega
  | word =>
    rw [show (joinBytes ((List.range Size.word.bytes).map b)).toNat = _ from joinBytes_two _ _]
    refine ⟨by simp only [Size.bytes]; omega, fun k hk => ?_⟩
    simp only [Size.bytes] at hk ⊢
    interval_cases k <;> omega
  | long =>
    rw [show (joinBytes ((List.range Size.long.bytes).map b)).toNat = _ from joinBytes_four _ _ _ _]
    refine ⟨by simp only [Size.bytes]; omega, fun k hk => ?_⟩
    simp only [Size.bytes] at hk ⊢
    interval_cases k <;> omega

/-- The low bits of a word that an access of this width carries. -/
def Size.low (z : Size) (v : Word) : Word := BitVec.ofNat 32 (v.toNat % 256 ^ z.bytes)

theorem Size.low_toNat (z : Size) (v : Word) : (z.low v).toNat = v.toNat % 256 ^ z.bytes := by
  have hle : 256 ^ z.bytes ≤ 2 ^ 32 := by cases z <;> decide
  exact Nat.mod_eq_of_lt ((Nat.mod_lt _ (by positivity)).trans_le hle)

@[simp] theorem low_long (v : Word) : Size.long.low v = v :=
  BitVec.eq_of_toNat_eq ((Size.low_toNat _ v).trans (Nat.mod_eq_of_lt v.isLt))

@[simp] theorem low_word (v : Word) : (Size.word.low v).setWidth 16 = v.setWidth 16 := by
  apply BitVec.eq_of_toNat_eq
  simp [Size.low_toNat, Size.bytes]

@[simp] theorem low_byte (v : Word) : (Size.byte.low v).setWidth 8 = v.setWidth 8 := by
  apply BitVec.eq_of_toNat_eq
  simp [Size.low_toNat, Size.bytes]

/-! ### The layout of the block -/

theorem OnchipReg.width_bounds (r : OnchipReg) : 0 < r.width ∧ r.width ≤ 4 := by
  cases r <;> simp [OnchipReg.width]

theorem mem_onchipRegs (r : OnchipReg) : r ∈ onchipRegs := by
  cases r with
  | smr port | brr port | scr port | tdr port | ssr port | rdr port => cases port <;> decide
  | sar c | dar c | tcr c | chcr c => fin_cases c <;> decide
  | dmaor => decide
  | intc r => cases r <;> decide

/-- The registers do not overlap, so an access that lies in one touches no other (60_exceptions.md R450). -/
theorem touched_eq {r : OnchipReg} {i n : Nat} (hn : 0 < n) (hi : i + n ≤ r.width) :
    touched (r.offset + i) n = [r] := by
  have hall : ∀ r ∈ onchipRegs, ∀ i < 4, ∀ n < 5, 0 < n → i + n ≤ r.width →
      touched (r.offset + i) n = [r] := by decide
  have hwidth := r.width_bounds.2
  exact hall r (mem_onchipRegs r) i (by omega) n (by omega) hn hi

/-- A byte belongs to the register that an access of it touches. -/
theorem onchipRegAt_eq (off : Nat) : onchipRegAt off = (touched off 1).head? := by
  unfold onchipRegAt touched
  rw [List.head?_filter]
  congr 1
  funext r
  simp only [Nat.lt_succ_iff]

theorem onchipRegAt_lane {r : OnchipReg} {i : Nat} (hi : i < r.width) :
    onchipRegAt (r.offset + i) = some r := by
  rw [onchipRegAt_eq, touched_eq Nat.one_pos hi]
  rfl

/-- Every byte of a register is one of the assigned bytes. -/
theorem assigned_of_mem {r : OnchipReg} {off : Nat} (hlo : r.offset ≤ off)
    (hhi : off < r.offset + r.width) : assigned off := by
  unfold assigned
  cases r with
  | smr port | brr port | scr port | tdr port | ssr port | rdr port =>
    cases port <;> simp only [OnchipReg.offset, OnchipReg.width, portBase] at hlo hhi <;> omega
  | sar c | dar c | tcr c | chcr c =>
    have hc := c.isLt
    simp only [OnchipReg.offset, OnchipReg.width, channelBase] at hlo hhi
    omega
  | dmaor =>
    simp only [OnchipReg.offset, OnchipReg.width] at hlo hhi
    omega
  | intc r =>
    cases r <;> simp only [OnchipReg.offset, OnchipReg.width, intcOffset] at hlo hhi <;> omega

theorem touched_unassigned {off n : Nat} (hn : 0 < n) (h : ∀ k, k < n → ¬ assigned (off + k)) :
    touched off n = [] := by
  refine List.filter_eq_nil_iff.2 fun r _ hr => ?_
  simp only [Bool.and_eq_true, decide_eq_true_eq] at hr
  have hpos := r.width_bounds.1
  obtain hle | hlt := Nat.le_total off r.offset
  · exact h (r.offset - off) (by omega) (assigned_of_mem (r := r) (by omega) (by omega))
  · exact h 0 (by omega) (assigned_of_mem (r := r) (by omega) (by omega))

/-! ### An access that lies in one register -/

theorem Io.bind_ok_self (r : Io) : r.bind .ok = r := by
  cases r <;> rfl

/-- A write that touches one register stores it and runs its action (20_memory.md R89). -/
theorem writeWith_touching {p : Platform} {a : Word} {off : Nat} {z : Size} {r : OnchipReg}
    (check : Platform → Io) (v : Word) (h : p.target (physical a) = .onchip off)
    (ht : touched off z.bytes = [r]) :
    p.writeWith check z a v =
      (storeReg r (p.merged r off (splitBytes z.bytes v)) p).bind
        (regAction check r (p.merged r off (splitBytes z.bytes v))) := by
  rw [writeWith_of_onchip _ _ _ h]
  simp only [Platform.writeOnchip, splitBytes_length, ht, List.map_cons, List.map_nil, storeAll,
    Io.bind_ok_self]
  congr 1
  funext q
  exact Io.bind_ok_self _

/-- A write that covers a register gives it its own bytes of the value. -/
theorem merged_covered (p : Platform) {r : OnchipReg} {off n : Nat} (v : Word) (hlo : off ≤ r.offset)
    (hhi : r.offset + r.width ≤ off + n) :
    p.merged r off (splitBytes n v) =
      joinBytes ((List.range r.width).map fun i => (splitBytes n v).getD (r.offset - off + i) 0) := by
  unfold Platform.merged
  refine congrArg joinBytes (List.map_congr_left fun i hi => ?_)
  have hi := List.mem_range.1 hi
  rw [splitBytes_length, if_pos (by omega), Nat.sub_add_comm hlo]

theorem merged_whole (p : Platform) {r : OnchipReg} {z : Size} (v : Word) (hw : r.width = z.bytes) :
    p.merged r r.offset (splitBytes z.bytes v) = z.low v := by
  rw [merged_covered p v le_rfl (by omega), hw]
  apply BitVec.eq_of_toNat_eq
  rw [Size.low_toNat]
  refine joinBytes_eq z (Nat.mod_lt _ (by positivity)) fun k hk => ?_
  rw [Nat.sub_self, Nat.zero_add, splitBytes_getD v hk]
  cases z <;> simp only [Size.bytes] at hk ⊢ <;> interval_cases k <;> omega

/-- A write of a register's own width stores the value's low bits and runs the register's action. -/
theorem writeWith_whole {p : Platform} {a : Word} {z : Size} (check : Platform → Io) (r : OnchipReg)
    (v : Word) (h : p.target (physical a) = .onchip r.offset) (hw : r.width = z.bytes) :
    p.writeWith check z a v = (storeReg r (z.low v) p).bind (regAction check r (z.low v)) := by
  have hpos : 0 < z.bytes := by cases z <;> decide
  rw [writeWith_touching check v h (touched_eq (i := 0) hpos (by omega)), merged_whole p v hw]

theorem write_whole {p : Platform} {a : Word} {z : Size} (r : OnchipReg) (v : Word)
    (h : p.target (physical a) = .onchip r.offset) (hw : r.width = z.bytes) :
    p.write z a v = (storeReg r (z.low v) p).bind (regAction checkActivations r (z.low v)) :=
  writeWith_whole checkActivations r v h hw

theorem onchipLane_toNat (p : Platform) {r : OnchipReg} {i : Nat} (hi : i < r.width) :
    (p.onchipLane r i).toNat = (p.onchipValue r).toNat / 256 ^ (r.width - 1 - i) % 256 :=
  splitBytes_getD _ hi

theorem onchipByte_lane (p : Platform) {r : OnchipReg} {i : Nat} (hi : i < r.width) :
    p.onchipByte (r.offset + i) = (p.onchipLane r i, p) := by
  rw [Platform.onchipByte, onchipRegAt_lane hi]
  simp only [Nat.add_sub_cancel_left]

/-- Reading lanes of a register draws nothing (20_memory.md R90). -/
theorem onchipBytes_lanes (p : Platform) {r : OnchipReg} {i n : Nat} (hi : i + n ≤ r.width) :
    Platform.onchipBytes n (r.offset + i) p = ((List.range n).map fun k => p.onchipLane r (i + k), p) := by
  induction n generalizing i with
  | zero => rfl
  | succ n ih =>
    simp only [Platform.onchipBytes, onchipByte_lane p (show i < r.width by omega)]
    rw [Nat.add_assoc, ih (by omega), List.range_succ_eq_map, List.map_cons, List.map_map]
    simp only [Nat.add_zero, Prod.mk.injEq, List.cons.injEq, true_and, and_true]
    refine List.map_congr_left fun k _ => ?_
    rw [Function.comp_apply, Nat.succ_eq_add_one, Nat.add_assoc, Nat.add_comm 1 k]

theorem read_lanes {p : Platform} {a : Word} {z : Size} {r : OnchipReg} {i : Nat}
    (h : p.target (physical a) = .onchip (r.offset + i)) (hi : i + z.bytes ≤ r.width) :
    p.read z a = (joinBytes ((List.range z.bytes).map fun k => p.onchipLane r (i + k)), p) := by
  simp only [Platform.read, Platform.readBytes, h, onchipBytes_lanes p hi]

/-- A read of a register's own width is the register's value. -/
theorem read_whole {p : Platform} {a : Word} {z : Size} (r : OnchipReg)
    (h : p.target (physical a) = .onchip r.offset) (hw : r.width = z.bytes) :
    p.read z a = (z.low (p.onchipValue r), p) := by
  rw [read_lanes (i := 0) h (by omega), Prod.mk.injEq]
  refine ⟨BitVec.eq_of_toNat_eq ?_, rfl⟩
  rw [Size.low_toNat]
  refine joinBytes_eq z (Nat.mod_lt _ (by positivity)) fun k hk => ?_
  rw [Nat.zero_add, onchipLane_toNat p (by omega), hw]
  cases z <;> simp only [Size.bytes] at hk ⊢ <;> interval_cases k <;> omega

/-! ### Drawn bytes -/

theorem drawBytes_eq (n : Nat) (p : Platform) :
    p.drawBytes n =
      ((List.range n).map fun k => Config.freeByte (p.draws + k), { p with draws := p.draws + n }) := by
  induction n generalizing p with
  | zero => rfl
  | succ n ih =>
    simp only [Platform.drawBytes, Platform.draw, ih]
    rw [List.range_succ_eq_map, List.map_cons, List.map_map, Nat.add_right_comm]
    simp only [Prod.mk.injEq, List.cons.injEq, Nat.add_zero, true_and]
    refine ⟨List.map_congr_left fun k _ => ?_, rfl⟩
    rw [Function.comp_apply, Nat.succ_eq_add_one, Nat.add_assoc, Nat.add_comm 1 k]

/-- Unassigned bytes are drawn one by one (60_exceptions.md R452). -/
theorem onchipBytes_unassigned {off n : Nat} (h : ∀ k, k < n → ¬ assigned (off + k)) (p : Platform) :
    Platform.onchipBytes n off p = p.drawBytes n := by
  induction n generalizing off p with
  | zero => rfl
  | succ n ih =>
    have hfirst : onchipRegAt off = none := by
      rw [onchipRegAt_eq, touched_unassigned Nat.one_pos fun k hk => h k (by omega)]
      rfl
    simp only [Platform.onchipBytes, Platform.drawBytes, Platform.onchipByte, hfirst]
    rw [ih fun k hk => by rw [Nat.add_assoc]; exact h (1 + k) (by omega)]

/-- What a read made of draws alone answers. -/
theorem drawn_joinBytes (p : Platform) (z : Size) : Drawn p z.bytes (joinBytes (p.drawBytes z.bytes).1) := by
  rw [drawBytes_eq]
  exact joinBytes_digits z fun k => Config.freeByte (p.draws + k)

/-! ### The interrupt controller -/

theorem Intc.get_set (c : Intc) (v : Half) (r r' : IntcReg) :
    (c.set v r).get r' = if r' = r then v else c.get r' := by
  cases r <;> cases r' <;> rfl

theorem intcStored_toNat (r : IntcReg) (v : Half) : (intcStored r v).toNat = intcKept r v.toNat := by
  have hv := v.isLt
  cases r with
  | ipre =>
    have hclear : v &&& 0xFFF0#16 = (v >>> 4) <<< 4 := by
      apply BitVec.eq_of_getLsbD_eq
      intro i hi
      interval_cases i <;> simp
    change (v &&& 0xFFF0#16).toNat = v.toNat % 65536 / 16 * 16
    rw [hclear, BitVec.toNat_shiftLeft, BitVec.toNat_ushiftRight, Nat.shiftLeft_eq,
      Nat.shiftRight_eq_div_pow]
    omega
  | icr => exact Nat.and_two_pow_sub_one_eq_mod v.toNat 9
  | _ => exact (Nat.mod_eq_of_lt hv).symm

theorem intcKept_mod (r : IntcReg) (n : Nat) : intcKept r (n % 65536) = intcKept r n := by
  cases r <;> simp only [intcKept] <;> omega

theorem intcKept_lt (r : IntcReg) (n : Nat) : intcKept r n < 65536 := by
  cases r <;> simp only [intcKept] <;> omega

/-- The platform with a value stored in an interrupt controller register. -/
def Platform.setIntc (p : Platform) (r : IntcReg) (v : Half) : Platform :=
  { p with intc := p.intc.set (intcStored r v) r }

theorem setIntc_get (p : Platform) (r r' : IntcReg) (v : Half) :
    (p.setIntc r v).intc.get r' = if r' = r then intcStored r v else p.intc.get r' :=
  Intc.get_set _ _ _ _

theorem setIntc_get_toNat (p : Platform) (r : IntcReg) (v : Half) :
    ((p.setIntc r v).intc.get r).toNat = intcKept r v.toNat := by
  rw [setIntc_get, if_pos rfl, intcStored_toNat]

theorem setIntc_get_ne (p : Platform) {r r' : IntcReg} (v : Half) (h : r' ≠ r) :
    (p.setIntc r v).intc.get r' = p.intc.get r' := by
  rw [setIntc_get, if_neg h]

theorem setIntc_target (p : Platform) (r : IntcReg) (v : Half) (t : Nat) :
    (p.setIntc r v).target t = p.target t :=
  Platform.target_congr rfl rfl t

theorem intcValue_toNat (p : Platform) (r : IntcReg) :
    (p.onchipValue (.intc r)).toNat = (p.intc.get r).toNat := by
  exact BitVec.toNat_setWidth_of_le (by decide)

/-- A write that touches one interrupt controller register stores it. -/
theorem write_intc {p : Platform} {a : Word} {off : Nat} {z : Size} {r : IntcReg} (v : Word)
    (h : p.target (physical a) = .onchip off) (ht : touched off z.bytes = [.intc r]) :
    p.write z a v = .ok (p.setIntc r ((p.merged (.intc r) off (splitBytes z.bytes v)).setWidth 16)) :=
  writeWith_touching checkActivations v h ht

/-- A byte written to one of two lanes is merged with the other (20_memory.md R89). -/
theorem merged_lane (p : Platform) {r : OnchipReg} {i : Nat} (v : Word) (hw : r.width = 2) (hi : i < 2) :
    (p.merged r (r.offset + i) (splitBytes 1 v)).toNat =
      if i = 0 then v.toNat % 256 * 256 + (p.onchipValue r).toNat % 256
      else (p.onchipValue r).toNat / 256 % 256 * 256 + v.toNat % 256 := by
  have hv : ((splitBytes 1 v).getD 0 0).toNat = v.toNat % 256 :=
    (splitBytes_getD v Nat.one_pos).trans (by simp)
  have h0 := onchipLane_toNat p (r := r) (i := 0) (by omega)
  have h1 := onchipLane_toNat p (r := r) (i := 1) (by omega)
  rw [hw] at h0 h1
  unfold Platform.merged
  rw [hw, splitBytes_length]
  refine (joinBytes_two _ _).trans ?_
  simp only [Nat.add_zero, Nat.reduceSub, pow_zero, pow_one, Nat.div_one] at h0 h1 ⊢
  interval_cases i
  · rw [if_pos (by omega), if_neg (by omega), if_pos rfl, Nat.add_zero, Nat.sub_self, hv, h1]
    omega
  · rw [if_neg (by omega), if_pos (by omega), if_neg Nat.one_ne_zero, Nat.sub_self, hv, h0]
    omega

theorem intcOffset_touched {r r' : IntcReg} (h : intcOffset r' = intcOffset r + 2) :
    touched (intcOffset r) 4 = [.intc r, .intc r'] := by
  have hmem : ∀ r : IntcReg, r ∈ [IntcReg.ipra, .iprb, .iprc, .iprd, .ipre, .icr] := by
    intro r
    cases r <;> decide
  have hall : ∀ r ∈ [IntcReg.ipra, .iprb, .iprc, .iprd, .ipre, .icr],
      ∀ r' ∈ [IntcReg.ipra, .iprb, .iprc, .iprd, .ipre, .icr], intcOffset r' = intcOffset r + 2 →
        touched (intcOffset r) 4 = [.intc r, .intc r'] := by decide
  exact hall r (hmem r) r' (hmem r') h

theorem writeWith_of_device {p : Platform} {a : Word} {r : Region} (check : Platform → Io) (z : Size)
    (v : Word) (h : p.target (physical a) = .device r) :
    p.writeWith check z a v =
      .ok { p with envWrites := p.envWrites ++ [{ address := a, bytes := splitBytes z.bytes v }] } := by
  simp only [Platform.writeWith, h]

/-- The word that a write of 16 bits stores in an interrupt controller register reads back. -/
theorem intcReadback_word {p : Platform} {a : Word} (r : IntcReg) (v : Word)
    (h : p.target (physical a) = .onchip (intcOffset r)) :
    p.write .word a v = .ok (p.setIntc r (v.setWidth 16)) ∧
      ((p.setIntc r (v.setWidth 16)).read .word a).1.toNat = intcKept r v.toNat := by
  have hkept : intcKept r (v.setWidth 16).toNat = intcKept r v.toNat := by
    rw [BitVec.toNat_setWidth]
    exact intcKept_mod r _
  refine ⟨?_, ?_⟩
  · rw [write_whole (.intc r) v h rfl]
    exact congrArg (fun w => Io.ok (p.setIntc r w)) (low_word v)
  · rw [read_whole (z := .word) (.intc r) ((setIntc_target ..).trans h) rfl,
      Size.low_toNat, intcValue_toNat, setIntc_get_toNat, hkept]
    exact Nat.mod_eq_of_lt (intcKept_lt r _)

/-- A byte of an interrupt controller register: the merged value is stored, and the byte reads back. -/
theorem intcReadback_byte {p : Platform} {a : Word} (r : IntcReg) (v : Word) {i new : Nat} (hi : i < 2)
    (h : p.target (physical a) = .onchip (intcOffset r + i))
    (hnew : (p.merged (.intc r) (intcOffset r + i) (splitBytes 1 v)).toNat = new) :
    let w := (p.merged (.intc r) (intcOffset r + i) (splitBytes 1 v)).setWidth 16
    p.write .byte a v = .ok (p.setIntc r w) ∧
      ((p.setIntc r w).intc.get r).toNat = intcKept r new ∧
      ((p.setIntc r w).read .byte a).1.toNat =
        if i = 0 then intcKept r new / 256 else intcKept r new % 256 := by
  intro w
  have hstored : ((p.setIntc r w).intc.get r).toNat = intcKept r new := by
    rw [setIntc_get_toNat, BitVec.toNat_setWidth, hnew]
    exact intcKept_mod r new
  refine ⟨write_intc v h (touched_eq (r := .intc r) Nat.one_pos (by exact hi)), hstored, ?_⟩
  have hlane : ((p.setIntc r w).onchipLane (.intc r) i).toNat = intcKept r new / 256 ^ (1 - i) % 256 := by
    rw [← hstored, ← intcValue_toNat]
    exact onchipLane_toNat _ (r := .intc r) hi
  have hkept := intcKept_lt r new
  rw [read_lanes (z := .byte) (r := .intc r) ((setIntc_target ..).trans h) (by exact hi)]
  refine (joinBytes_one _).trans (hlane.trans ?_)
  interval_cases i
  · rw [if_pos rfl]
    exact Nat.mod_eq_of_lt (by omega)
  · rw [if_neg Nat.one_ne_zero, Nat.sub_self, pow_zero, Nat.div_one]

/-- The two halves that a long write gives two neighbouring registers. -/
theorem merged_halves (p : Platform) {r r' : IntcReg} (v : Word) (hnext : intcOffset r' = intcOffset r + 2) :
    (p.merged (.intc r) (intcOffset r) (splitBytes 4 v)).toNat = v.toNat / 65536 ∧
      (p.merged (.intc r') (intcOffset r) (splitBytes 4 v)).toNat = v.toNat % 65536 := by
  have hbyte : ∀ k, k < 4 → ((splitBytes 4 v).getD k 0).toNat = v.toNat / 256 ^ (3 - k) % 256 :=
    fun k hk => splitBytes_getD v hk
  have hoff : (OnchipReg.intc r').offset - intcOffset r = 2 := by
    change intcOffset r' - intcOffset r = 2
    omega
  have hv := v.isLt
  have hr : p.merged (.intc r) (intcOffset r) (splitBytes 4 v) = _ :=
    merged_covered p (r := .intc r) v le_rfl (Nat.add_le_add_left (by decide : 2 ≤ 4) _)
  have hr' : p.merged (.intc r') (intcOffset r) (splitBytes 4 v) = _ :=
    merged_covered p (r := .intc r') v (by simp [OnchipReg.offset, hnext])
      (by simp [OnchipReg.offset, OnchipReg.width, hnext])
  rw [hr, hr', hoff, show (OnchipReg.intc r).offset - intcOffset r = 0 from Nat.sub_self _]
  refine ⟨joinBytes_eq .word (by simp only [Size.bytes]; omega) fun k hk => ?_,
    joinBytes_eq .word (by simp only [Size.bytes]; omega) fun k hk => ?_⟩
  all_goals
    simp only [Size.bytes] at hk ⊢
    rw [hbyte _ (by omega)]
    interval_cases k <;> omega

/-- A long that covers two neighbouring interrupt controller registers. -/
theorem intcReadback_long {p : Platform} {a : Word} {r r' : IntcReg} (v : Word)
    (hnext : intcOffset r' = intcOffset r + 2) (h : p.target (physical a) = .onchip (intcOffset r)) :
    let half := fun x : IntcReg => (p.merged (.intc x) (intcOffset r) (splitBytes 4 v)).setWidth 16
    let q := (p.setIntc r (half r)).setIntc r' (half r')
    p.write .long a v = .ok q ∧
      (q.intc.get r).toNat = intcKept r (v.toNat / 65536) ∧
      (q.intc.get r').toNat = intcKept r' v.toNat ∧
      (q.read .long a).1.toNat = 65536 * (q.intc.get r).toNat + (q.intc.get r').toNat := by
  intro half q
  obtain ⟨hhigh, hlow⟩ := merged_halves p v hnext
  have hne : r ≠ r' := fun e => by subst e; omega
  have hv := v.isLt
  refine ⟨?write, ?high, ?low, ?read⟩
  case write =>
    have ht : touched (intcOffset r) Size.long.bytes = _ := intcOffset_touched hnext
    unfold Platform.write
    rw [writeWith_of_onchip _ _ _ h, Platform.writeOnchip, splitBytes_length, ht]
    rfl
  case high =>
    rw [setIntc_get_ne _ _ hne, setIntc_get_toNat, BitVec.toNat_setWidth, hhigh]
    exact intcKept_mod r _
  case low =>
    rw [setIntc_get_toNat, BitVec.toNat_setWidth, hlow, intcKept_mod]
    exact intcKept_mod r' _
  case read =>
    have hq : q.target (physical a) = .onchip (intcOffset r) :=
      (setIntc_target ..).trans ((setIntc_target ..).trans h)
    have h0 : q.onchipByte (intcOffset r) = (q.onchipLane (.intc r) 0, q) :=
      onchipByte_lane q (r := .intc r) (i := 0) Nat.two_pos
    have h1 : q.onchipByte (intcOffset r + 1) = (q.onchipLane (.intc r) 1, q) :=
      onchipByte_lane q (r := .intc r) (i := 1) Nat.one_lt_two
    have h2 : q.onchipByte (intcOffset r + 2) = (q.onchipLane (.intc r') 0, q) :=
      hnext ▸ onchipByte_lane q (r := .intc r') (i := 0) Nat.two_pos
    have h3 : q.onchipByte (intcOffset r + 3) = (q.onchipLane (.intc r') 1, q) :=
      congrArg (· + 1) hnext ▸ onchipByte_lane q (r := .intc r') (i := 1) Nat.one_lt_two
    have hlane : ∀ x : IntcReg, ∀ i, i < 2 →
        (q.onchipLane (.intc x) i).toNat = (q.intc.get x).toNat / 256 ^ (1 - i) % 256 :=
      fun x i hi => intcValue_toNat q x ▸ onchipLane_toNat q (r := .intc x) hi
    have hbytes : q.read .long a = (joinBytes [q.onchipLane (.intc r) 0, q.onchipLane (.intc r) 1,
        q.onchipLane (.intc r') 0, q.onchipLane (.intc r') 1], q) := by
      simp only [Platform.read, Platform.readBytes, hq, Size.bytes, Platform.onchipBytes,
        Nat.add_assoc, Nat.reduceAdd, h0, h1, h2, h3]
    have hlt := (q.intc.get r).isLt
    have hlt' := (q.intc.get r').isLt
    rw [hbytes]
    refine (joinBytes_four _ _ _ _).trans ?_
    rw [hlane r 0 (by decide), hlane r 1 (by decide), hlane r' 0 (by decide), hlane r' 1 (by decide)]
    omega

end Sys2Proof.Machine

open Sys2Proof.Machine Sys2Proof.Claims in
/-- Settles O51: such an access touches no register, and its bytes are drawn one by one. -/
theorem unassignedAndEnvironmentAccess : Obligations.UnassignedAndEnvironmentAccess := by
  refine ⟨fun p z a v off h hfree => ?unassigned, fun p z a v r h => ?environment⟩
  case unassigned =>
    have hread : p.read z a = (joinBytes (p.drawBytes z.bytes).1, (p.drawBytes z.bytes).2) := by
      simp only [Platform.read, Platform.readBytes, h, onchipBytes_unassigned hfree]
    have hpos : 0 < z.bytes := by cases z <;> decide
    rw [hread]
    refine ⟨drawn_joinBytes p z, by rw [drawBytes_eq], ?_⟩
    unfold Platform.write
    rw [writeWith_of_onchip _ _ _ h, Platform.writeOnchip, splitBytes_length,
      touched_unassigned hpos hfree]
    rfl
  case environment =>
    have hread : p.read z a = (joinBytes (p.drawBytes z.bytes).1, (p.drawBytes z.bytes).2) := by
      simp only [Platform.read, Platform.readBytes, h]
    rw [hread]
    exact ⟨drawn_joinBytes p z, by rw [drawBytes_eq], splitBytes z.bytes v,
      writeWith_of_device checkActivations z v h, splitBytes_length _ _, fun k hk => splitBytes_getD v hk⟩

open Sys2Proof.Machine Sys2Proof.Claims in
/-- Settles O52, by the registers that an access of each width touches. -/
theorem intcReadback : Obligations.IntcReadback := by
  refine ⟨?word, ?byte, ?long⟩
  case word =>
    intro p r a v h
    obtain ⟨hwrite, hread⟩ := intcReadback_word r v h
    exact ⟨_, hwrite, hread, fun r' hr' => setIntc_get_ne p _ hr', rfl⟩
  case byte =>
    intro p r a v i hi h old new
    have hnew : (p.merged (.intc r) (intcOffset r + i) (splitBytes 1 v)).toNat = new := by
      refine (merged_lane p (r := .intc r) v rfl hi).trans ?_
      have hold : old < 65536 := (p.intc.get r).isLt
      rw [intcValue_toNat, Nat.mod_eq_of_lt (a := (p.intc.get r).toNat / 256) (by omega)]
    obtain ⟨hwrite, hstored, hread⟩ := intcReadback_byte r v hi h hnew
    exact ⟨_, hwrite, hstored, hread, fun r' hr' => setIntc_get_ne p _ hr', rfl⟩
  case long =>
    intro p r r' a v hnext h
    obtain ⟨hwrite, hhigh, hlow, hread⟩ := intcReadback_long v hnext h
    exact ⟨_, hwrite, hhigh, hlow, hread,
      fun x hx hx' => (setIntc_get_ne _ _ hx').trans (setIntc_get_ne p _ hx), rfl⟩

namespace Sys2Proof.Machine

open Sys2Proof.Claims

/-! ### The DMA controller's registers -/

section

variable (c : Fin 4)

theorem sar_offset : (OnchipReg.sar c).offset = 0x140 + 0x10 * c.val := rfl

theorem dar_offset : (OnchipReg.dar c).offset = 0x144 + 0x10 * c.val := by
  simp only [OnchipReg.offset, channelBase]
  omega

theorem tcr_offset : (OnchipReg.tcr c).offset = 0x14A + 0x10 * c.val := by
  simp only [OnchipReg.offset, channelBase]
  omega

theorem chcr_offset : (OnchipReg.chcr c).offset = 0x14E + 0x10 * c.val := by
  simp only [OnchipReg.offset, channelBase]
  omega

end

/-- A TCR of 0 stands for 0x10000 (60_exceptions.md R413). -/
theorem tcrCount_toNat (v : Half) :
    (tcrCount v).toNat = if v.toNat = 0 then 0x10000 else v.toNat := by
  have hv := v.isLt
  by_cases h : v = 0
  · subst h
    rfl
  · have h' : v.toNat ≠ 0 := fun e => h (BitVec.eq_of_toNat_eq e)
    rw [tcrCount, if_neg h, if_neg h', BitVec.toNat_setWidth]
    omega

theorem chcrStepReserved_iff (v : Half) :
    chcrStepReserved v = true ↔ v.toNat / 2 ^ 14 % 4 = 3 ∨ v.toNat / 2 ^ 12 % 4 = 3 := by
  simp only [chcrStepReserved, Bool.or_eq_true, beq_iff_eq, ← BitVec.toNat_inj, BitVec.extractLsb'_toNat,
    Nat.shiftRight_eq_div_pow]
  rfl

/-- TE can only be cleared, and every other bit is the value's (60_exceptions.md R415). -/
theorem chcrStored_bit (old v : Half) {k : Nat} (hk : k < 16) :
    (chcrStored old v).getLsbD k = if k = 1 then v.getLsbD 1 && old.getLsbD 1 else v.getLsbD k := by
  interval_cases k <;> simp [chcrStored]

/-- What a write of CHCR stores, or refuses (60_exceptions.md R415, R416). -/
theorem write_chcr {p : Platform} {c : Fin 4} {a : Word} (v : Word)
    (h : p.target (physical a) = .onchip (0x14E + 0x10 * c.val)) :
    p.write .word a v =
      if v.getLsbD 2 then .raise (.unimplemented .dmaInterrupt (.chcr c) (v.setWidth 16)) p
      else if chcrStepReserved (v.setWidth 16) then
        .raise (.unimplemented .dmaStep (.chcr c) (v.setWidth 16)) p
      else checkActivations
        (p.setChan c { p.chan c with chcr := chcrStored (p.chan c).chcr (v.setWidth 16) }) := by
  have hbit : (v.setWidth 16).getLsbD 2 = v.getLsbD 2 := by simp
  rw [write_whole (.chcr c) v ((chcr_offset c).symm ▸ h) rfl]
  simp only [storeReg, low_word, hbit]
  split
  · rfl
  · split <;> rfl

/-- What a write of SMR stores, or refuses (60_exceptions.md R431). -/
theorem write_smr {p : Platform} {port : Port} {a : Word} (v : Word)
    (h : p.target (physical a) = .onchip (portBase port)) :
    p.write .byte a v =
      if v.getLsbD 7 then .raise (.unimplemented .syncSerial (.smr port) ((low8 v).setWidth 16)) p
      else .ok (p.setSci { p.sci port with smr := low8 v } port) := by
  have hbit : (v.setWidth 8).getLsbD 7 = v.getLsbD 7 := by simp
  rw [write_whole (.smr port) v h rfl]
  simp only [storeReg, low_byte, hbit]
  split <;> rfl

end Sys2Proof.Machine

open Sys2Proof.Machine Sys2Proof.Claims in
/-- Settles O53: a register written or read at its own width, and no activation without an enabled channel. -/
theorem dmaRegisterWrites : Obligations.DmaRegisterWrites := by
  refine ⟨fun p c a v => ⟨fun h => ?sar, fun h => ?dar, fun h => ?tcr, fun h => ?dmaor⟩,
    fun p h => checkActivations_of_disabled h⟩
  case sar =>
    rw [← sar_offset] at h
    rw [write_whole _ v h rfl, read_whole _ h rfl, low_long, low_long]
    exact ⟨rfl, rfl⟩
  case dar =>
    rw [← dar_offset] at h
    rw [write_whole _ v h rfl, read_whole _ h rfl, low_long, low_long]
    exact ⟨rfl, rfl⟩
  case tcr =>
    rw [← tcr_offset] at h
    rw [write_whole _ v h rfl, read_whole _ h rfl, Size.low_toNat]
    refine ⟨⟨tcrCount (v.setWidth 16), ?_, by rw [← low_word]; rfl⟩, ?_, rfl⟩
    · rw [tcrCount_toNat, BitVec.toNat_setWidth]
    · simp [Platform.onchipValue, Size.bytes]
  case dmaor =>
    have h' : p.target (physical a) = .onchip OnchipReg.dmaor.offset := h
    rw [write_whole _ v h' rfl, read_whole _ h' rfl]
    refine ⟨by rw [← low_word]; rfl, Prod.mk.injEq .. ▸ ⟨BitVec.eq_of_toNat_eq ?_, rfl⟩⟩
    have hlt := p.dmaor.isLt
    rw [Size.low_toNat]
    simp only [Platform.onchipValue, Size.bytes, BitVec.toNat_setWidth]
    omega

open Sys2Proof.Machine Sys2Proof.Claims in
/-- Settles O54, by the bits of the value that decide (`write_chcr`, `write_smr`). -/
theorem controlRegisterRefusals : Obligations.ControlRegisterRefusals := by
  refine ⟨fun p c a v h => ?chcr, fun p port a v h => ?smr⟩
  case chcr =>
    have hsteps : chcrStepReserved (v.setWidth 16) = true ↔
        v.toNat / 2 ^ 14 % 4 = 3 ∨ v.toNat / 2 ^ 12 % 4 = 3 := by
      rw [chcrStepReserved_iff, BitVec.toNat_setWidth]
      omega
    rw [write_chcr v h]
    refine ⟨fun hie => if_pos hie, fun hie hs => ?_, fun hie hs hs' => ?_⟩
    · rw [if_neg (Bool.eq_false_iff.1 hie), if_pos (hsteps.2 hs)]
    · rw [if_neg (Bool.eq_false_iff.1 hie), if_neg (mt hsteps.1 (not_or.2 ⟨hs, hs'⟩))]
      refine ⟨_, rfl, fun k hk => ?_⟩
      rw [chcrStored_bit _ _ hk]
      simp [hk]
  case smr =>
    rw [write_smr v h]
    exact ⟨fun hca => if_pos hca, fun hca => if_neg (Bool.eq_false_iff.1 hca)⟩

end

section
/-! PROOFS of the family 60_exceptions.md. The serial ports: the transmit request line, the start of a byte, the
writes of the ports' registers, and the bit clock. -/

namespace Sys2Proof.Machine

open Sys2Proof.Claims

/-! ### A port, its request line and its events as parts of the platform -/

section

variable (p : Platform) (c d : SciPort) (port : Port) (b b' : Bool)

theorem setSci_setSci : (p.setSci c port).setSci d port = p.setSci d port := by
  cases port <;> rfl

theorem sci_setSci_same : (p.setSci c port).sci port = c := by
  cases port <;> rfl

theorem setSci_setLine :
    (p.setLine b (txLine port)).setSci c port = (p.setSci c port).setLine b (txLine port) := by
  cases port <;> rfl

theorem setLine_setLine :
    (p.setLine b (txLine port)).setLine b' (txLine port) = p.setLine b' (txLine port) := by
  cases port <;> rfl

theorem asserted_setLine : (p.setLine b (txLine port)).asserted (txLine port) = b := by
  cases port <;> rfl

theorem asserted_setSci : (p.setSci c port).asserted (txLine port) = p.asserted (txLine port) := by
  cases port <;> rfl

theorem setLine_asserted : p.setLine (p.asserted (txLine port)) (txLine port) = p := by
  cases port <;> rfl

theorem queued_setLine (delay : Int) :
    queued (p.setLine b (txLine port)) delay port = (queued p delay port).setLine b (txLine port) := by
  cases port <;> rfl

theorem sci_queued (delay : Int) : (queued p delay port).sci port = p.sci port := by
  cases port <;> rfl

theorem asserted_queued (delay : Int) :
    (queued p delay port).asserted (txLine port) = p.asserted (txLine port) := by
  cases port <;> rfl

end

section

variable {p : Platform} (h : NoDma p)

include h

theorem noDma_setSci (c : SciPort) (port : Port) : NoDma (p.setSci c port) := by
  simpa [NoDma] using h

theorem noDma_setLine (b : Bool) (l : DreqLine) : NoDma (p.setLine b l) := by
  simpa [NoDma] using h

theorem noDma_queued (delay : Int) (port : Port) : NoDma (queued p delay port) := h

end

/-! ### The request line and the start of a byte -/

/-- The line is set to what the port asks for, and only a change re-evaluates the channels
(60_exceptions.md R444). -/
theorem updateTxLine_eq (check : Platform → Io) (port : Port) (p : Platform) :
    updateTxLine check port p =
      if p.asserted (txLine port) = ((p.sci port).te && (p.sci port).txEmpty) then .ok p
      else check (p.setLine ((p.sci port).te && (p.sci port).txEmpty) (txLine port)) := by
  unfold updateTxLine sendDreq clearDreq
  generalize ((p.sci port).te && (p.sci port).txEmpty) = want
  cases want <;> cases p.asserted (txLine port) <;> rfl

/-- Where the re-evaluation of a changed line does nothing, the line is set and no more. -/
theorem updateTxLine_set {check : Platform → Io} {port : Port} {p : Platform} {want : Bool}
    (hw : ((p.sci port).te && (p.sci port).txEmpty) = want)
    (h : p.asserted (txLine port) = want ∨
      check (p.setLine want (txLine port)) = .ok (p.setLine want (txLine port))) :
    updateTxLine check port p = .ok (p.setLine want (txLine port)) := by
  rw [updateTxLine_eq, hw]
  split
  · next heq => rw [← heq, setLine_asserted]
  · next hne => exact h.resolve_left hne

theorem checkActivations_noDma {p : Platform} (h : NoDma p) : checkActivations p = .ok p :=
  checkActivations_of_disabled h

/-- The bit period of the registers (60_exceptions.md R441). -/
theorem cyclesPerBit_eq (c : SciPort) : c.cyclesPerBit = bitPeriod c := by
  have hcks : c.cks.toNat = c.smr.toNat % 4 := by
    simp [SciPort.cks]
  rw [SciPort.cyclesPerBit, bitPeriod, hcks, Nat.pow_mul]

theorem addEvent_cpu (delay : Int) (port : Port) (p : Platform) :
    addEvent cpuDomain delay port p = queued p delay port := rfl

/-- `start()` loads the shifter and queues the bit clock; the line follows (60_exceptions.md R438). -/
theorem sciStart_eq (check : Platform → Io) (port : Port) (p : Platform) :
    sciStart check port p =
      updateTxLine check port
        (queued (p.setSci (loaded (p.sci port)) port) (bitPeriod (p.sci port)) port) := by
  unfold sciStart
  dsimp only
  rw [addEvent_cpu, cyclesPerBit_eq]
  rfl

/-- The port that a start leaves asks for the next byte while TE is set. -/
theorem sci_started (p : Platform) (c : SciPort) (delay : Int) (port : Port) :
    (queued (p.setSci (loaded c) port) delay port).sci port = loaded c := by
  rw [sci_queued, sci_setSci_same]

theorem sciStart_noDma {port : Port} {p : Platform} (h : NoDma p) (hte : (p.sci port).te = true) :
    sciStart checkActivations port p =
      .ok ((queued (p.setSci (loaded (p.sci port)) port) (bitPeriod (p.sci port)) port).setLine true
        (txLine port)) := by
  rw [sciStart_eq]
  have hdma := noDma_setLine (noDma_queued (noDma_setSci h (loaded (p.sci port)) port)
    (bitPeriod (p.sci port)) port) true (txLine port)
  refine updateTxLine_set ?_ (.inr (checkActivations_noDma hdma))
  rw [sci_started]
  exact Bool.and_eq_true_iff.2 ⟨hte, rfl⟩

/-! ### Writes of TDR and SCR -/

/-- A write of TDR queues the byte, and a port that is idle under TE starts (60_exceptions.md R434). -/
theorem writeWith_tdr {p : Platform} {port : Port} {a : Word} (check : Platform → Io) (v : Word)
    (h : p.target (physical a) = .onchip (portBase port + 3)) :
    p.writeWith check .byte a v = tdrAction check port (low8 v) p := by
  rw [writeWith_whole check (.tdr port) v h rfl]
  simp only [storeReg, regAction, low_byte, Io.bind, tdrAction, setSci_setSci, sci_setSci_same]
  rfl

/-- A write of SCR stores it, and a byte queued before starts on an idle port (60_exceptions.md R433). -/
theorem write_scr {p : Platform} {port : Port} {a : Word} (v : Word)
    (h : p.target (physical a) = .onchip (portBase port + 2)) :
    p.write .byte a v =
      scrAction checkActivations port (p.setSci { p.sci port with scr := low8 v } port) := by
  rw [write_whole (.scr port) v h rfl]
  simp only [storeReg, regAction, low_byte, Io.bind]
  rfl

/-- The port with a byte queued in TDR. -/
def SciPort.queuing (c : SciPort) (b : Byte) : SciPort := { c with tdr := b, txEmpty := false }

/-- The platform with a byte queued in a port's TDR, which takes the request line down. -/
def Platform.queueByte (p : Platform) (port : Port) (b : Byte) : Platform :=
  (p.setSci ((p.sci port).queuing b) port).setLine false (txLine port)

theorem sci_queueByte (p : Platform) (port : Port) (b : Byte) :
    (p.queueByte port b).sci port = (p.sci port).queuing b := by
  rw [Platform.queueByte, Platform.sci_setLine, sci_setSci_same]

theorem noDma_queueByte {p : Platform} (h : NoDma p) (port : Port) (b : Byte) :
    NoDma (p.queueByte port b) :=
  noDma_setLine (noDma_setSci h _ _) _ _

/-- The action of TDR, where the re-evaluation of a dropped line does nothing. -/
theorem tdrAction_eq {check : Platform → Io} {p : Platform} {port : Port} {b : Byte}
    (h : p.asserted (txLine port) = false ∨ check (p.queueByte port b) = .ok (p.queueByte port b)) :
    tdrAction check port b p =
      if !(p.sci port).busy && (p.sci port).te then sciStart check port (p.queueByte port b)
      else .ok (p.queueByte port b) := by
  have hline : updateTxLine check port (p.setSci ((p.sci port).queuing b) port) =
      .ok (p.queueByte port b) := by
    refine updateTxLine_set ?_ (h.imp_left (asserted_setSci ..).trans)
    rw [sci_setSci_same]
    exact Bool.and_false _
  change (updateTxLine check port (p.setSci ((p.sci port).queuing b) port)).bind _ = _
  rw [hline]
  simp only [Io.bind, sci_queueByte]
  rfl

/-- On a busy port, or with TE 0, the byte is queued and the line is down. -/
theorem tdrAction_queues {check : Platform → Io} {p : Platform} {port : Port} {b : Byte}
    (h : p.asserted (txLine port) = false ∨ check (p.queueByte port b) = .ok (p.queueByte port b))
    (hwait : (p.sci port).busy = true ∨ (p.sci port).te = false) :
    tdrAction check port b p = .ok (p.queueByte port b) := by
  rw [tdrAction_eq h, if_neg]
  obtain hb | hte := hwait
  · simp [hb]
  · simp [hte]

/-- The start of a byte that was queued while its line was down. -/
theorem sciStart_queued {p : Platform} {port : Port} {c : SciPort} (h : NoDma p) (hte : c.te = true) :
    sciStart checkActivations port ((p.setSci c port).setLine false (txLine port)) =
      .ok ((queued (p.setSci (loaded c) port) (bitPeriod c) port).setLine true (txLine port)) := by
  have hport : ((p.setSci c port).setLine false (txLine port)).sci port = c := by
    rw [Platform.sci_setLine, sci_setSci_same]
  rw [sciStart_noDma (noDma_setLine (noDma_setSci h _ _) _ _) (by rw [hport]; exact hte), hport,
    setSci_setLine, setSci_setSci, queued_setLine, setLine_setLine]

/-- On an idle port with TE set the byte starts. -/
theorem tdrAction_starts {p : Platform} {port : Port} {b : Byte} (h : NoDma p)
    (hidle : (p.sci port).busy = false) (hte : (p.sci port).te = true) :
    tdrAction checkActivations port b p =
      .ok ((queued (p.setSci (loaded ((p.sci port).queuing b)) port) (bitPeriod (p.sci port)) port).setLine
        true (txLine port)) := by
  have hgo : (!(p.sci port).busy && (p.sci port).te) = true := by
    rw [hidle, hte]
    rfl
  rw [tdrAction_eq (.inr (checkActivations_noDma (noDma_queueByte h _ _))), if_pos hgo]
  exact sciStart_queued h hte

/-- The action of SCR on a port `c` just stored: the line follows, and a byte queued before starts. -/
theorem scrAction_noDma {p : Platform} {port : Port} {c : SciPort} (h : NoDma p) :
    scrAction checkActivations port (p.setSci c port) =
      if c.te = true ∧ c.busy = false ∧ c.txEmpty = false then
        .ok ((queued (p.setSci (loaded c) port) (bitPeriod c) port).setLine true (txLine port))
      else .ok ((p.setSci c port).setLine (c.te && c.txEmpty) (txLine port)) := by
  have hline : updateTxLine checkActivations port (p.setSci c port) =
      .ok ((p.setSci c port).setLine (c.te && c.txEmpty) (txLine port)) :=
    updateTxLine_set (by rw [sci_setSci_same])
      (.inr (checkActivations_noDma (noDma_setLine (noDma_setSci h _ _) _ _)))
  rw [scrAction, hline]
  simp only [Io.bind, Platform.sci_setLine, sci_setSci_same, Bool.and_eq_true, Bool.not_eq_true', and_assoc]
  split
  · next hstart =>
    obtain ⟨hte, -, hfull⟩ := hstart
    rw [hfull, Bool.and_false]
    exact sciStart_queued h hte
  · rfl

/-! ### What SSR reads -/

theorem byteOfBits_toNat (b7 b6 b5 b4 b3 b2 b1 b0 : Bool) :
    (byteOfBits b7 b6 b5 b4 b3 b2 b1 b0).toNat =
      128 * b7.toNat + 64 * b6.toNat + 32 * b5.toNat + 16 * b4.toNat + 8 * b3.toNat + 4 * b2.toNat +
        2 * b1.toNat + b0.toNat := by
  simp only [byteOfBits, append_toNat, BitVec.toNat_ofBool]
  omega

/-! ### The shifter and the bit clock -/

/-- After `k` shifts the shift register has moved down by `k` bits into the top of the output register
(60_exceptions.md R439). -/
theorem shifted_iterate_bits (c : SciPort) (k : Nat) (i : Nat) (hi : i < 8) :
    (SciPort.shifted^[k] c).shiftReg.getLsbD i = c.shiftReg.getLsbD (i + k) ∧
      (SciPort.shifted^[k] c).prepared.getLsbD i =
        if i + k < 8 then c.prepared.getLsbD (i + k) else c.shiftReg.getLsbD (i + k - 8) := by
  induction k generalizing i with
  | zero => simp [hi]
  | succ k ih =>
    rw [Function.iterate_succ_apply']
    simp only [SciPort.shifted, BitVec.getLsbD_or, BitVec.getLsbD_ushiftRight, BitVec.getLsbD_shiftLeft,
      BitVec.getLsbD_and]
    obtain hlt | rfl : i < 7 ∨ i = 7 := by omega
    · obtain ⟨hshift, hprep⟩ := ih (1 + i) (by omega)
      rw [hshift, hprep, show 1 + i + k = i + (k + 1) by omega]
      simp [hlt]
    · obtain ⟨hshift, -⟩ := ih 0 (by omega)
      rw [BitVec.getLsbD_of_ge _ (1 + 7) le_rfl, BitVec.getLsbD_of_ge _ (1 + 7) le_rfl,
        BitVec.getLsbD_of_ge _ (7 + (k + 1)) (by omega), if_neg (by omega), hshift,
        show 7 + (k + 1) - 8 = k by omega]
      simp

theorem shifted_eight_prepared (c : SciPort) : (SciPort.shifted^[8] c).prepared = c.shiftReg := by
  apply BitVec.eq_of_getLsbD_eq
  intro i hi
  rw [(shifted_iterate_bits c 8 i hi).2, if_neg (by omega), Nat.add_sub_cancel]

theorem bitPeriod_bounds (c : SciPort) : 32 ≤ bitPeriod c ∧ bitPeriod c ≤ 524288 := by
  have hbrr := c.brr.isLt
  have hfactor : 1 ≤ 4 ^ (c.smr.toNat % 4) ∧ 4 ^ (c.smr.toNat % 4) ≤ 64 := by
    have hlt : c.smr.toNat % 4 < 4 := Nat.mod_lt _ (by decide)
    generalize c.smr.toNat % 4 = k at hlt ⊢
    interval_cases k <;> decide
  rw [bitPeriod]
  constructor
  · exact Nat.mul_le_mul (Nat.mul_le_mul_left 32 hfactor.1) (Nat.succ_le_succ (Nat.zero_le _))
  · calc 32 * 4 ^ (c.smr.toNat % 4) * (c.brr.toNat + 1)
        ≤ 32 * 64 * 256 := Nat.mul_le_mul (Nat.mul_le_mul_left 32 hfactor.2) (by omega)
      _ = 524288 := rfl

/-- The platform with the byte of a port's output register appended to the output log
(60_exceptions.md R442). -/
def Platform.logByte (p : Platform) (port : Port) (b : Byte) : Platform :=
  { p with outLog := p.outLog ++ [{ port := port, byte := b, cycle := p.now }] }

section

variable {check : Platform → Io} {port : Port} {late : Int} {p : Platform}

/-- While bits are left the clock is due again. -/
theorem bitClock_more (h : 1 < (p.sci port).bitsLeft) :
    bitClock check port late p =
      .ok (queued (p.setSci (p.sci port).shifted port) ((bitPeriod (p.sci port) : Int) - late) port) := by
  have hleft : (p.sci port).shifted.bitsLeft > 0 := Nat.sub_pos_of_lt h
  rw [bitClock, if_pos hleft, addEvent_cpu, cyclesPerBit_eq]
  rfl

/-- The last bit ends the byte with the port as shifted. -/
theorem bitClock_last (h : (p.sci port).bitsLeft = 1) :
    bitClock check port late p = byteComplete check port (p.setSci (p.sci port).shifted port) := by
  have hleft : ¬ (p.sci port).shifted.bitsLeft > 0 := by
    simp [SciPort.shifted, h]
  rw [bitClock, if_neg hleft]

theorem byteComplete_ends {c : SciPort} (h : c.txEmpty = true ∨ c.te = false) :
    byteComplete check port (p.setSci c port) =
      .ok ((p.logByte port c.prepared).setSci { c with busy := false, tend := true } port) := by
  have hstop : ¬ (!c.txEmpty && c.te) = true := by
    obtain he | he := h <;> simp [he]
  unfold byteComplete
  rw [sci_setSci_same]
  refine (if_neg hstop).trans ?_
  cases port <;> rfl

/-- The platform once a queued byte has started at the end of the one before. -/
def Platform.restarted (p : Platform) (port : Port) (c : SciPort) : Platform :=
  queued ((p.logByte port c.prepared).setSci (loaded c) port) (bitPeriod c) port

theorem byteComplete_restarts {c : SciPort} (hfull : c.txEmpty = false) (hte : c.te = true) :
    byteComplete check port (p.setSci c port) = updateTxLine check port (p.restarted port c) := by
  have hgo : (!c.txEmpty && c.te) = true := by
    rw [hfull, hte]
    rfl
  unfold byteComplete
  rw [sci_setSci_same]
  refine (if_pos hgo).trans ?_
  rw [sciStart_eq, sci_setSci_same, setSci_setSci]
  cases port <;> rfl

theorem restarted_wants {c : SciPort} (hte : c.te = true) :
    (((p.restarted port c).sci port).te && ((p.restarted port c).sci port).txEmpty) = true := by
  rw [Platform.restarted, sci_started]
  exact Bool.and_eq_true_iff.2 ⟨hte, rfl⟩

/-- The start of a queued byte asserts a line that was down, which re-evaluates the channels. -/
theorem updateTxLine_restarted {c : SciPort} (hte : c.te = true)
    (hline : p.asserted (txLine port) = false) :
    updateTxLine check port (p.restarted port c) =
      check ((p.restarted port c).setLine true (txLine port)) := by
  have hlow : (p.restarted port c).asserted (txLine port) = false := by
    rw [Platform.restarted, asserted_queued, asserted_setSci]
    cases port <;> exact hline
  rw [updateTxLine_eq, restarted_wants hte, if_neg (by rw [hlow]; decide)]

theorem updateTxLine_restarted_noDma {c : SciPort} (hte : c.te = true) (hdma : NoDma p) :
    updateTxLine checkActivations port (p.restarted port c) =
      .ok ((p.restarted port c).setLine true (txLine port)) := by
  have hdma' := noDma_setLine (noDma_queued (noDma_setSci (p := p.logByte port c.prepared) hdma
    (loaded c) port) (bitPeriod c) port) true (txLine port)
  exact updateTxLine_set (restarted_wants hte) (.inr (checkActivations_noDma hdma'))

end

end Sys2Proof.Machine

open Sys2Proof.Machine Sys2Proof.Claims in
/-- Settles O57, by whether TE is set and the port idle (`tdrAction_starts`, `tdrAction_queues`). -/
theorem tdrWriteStartsOrQueues : Obligations.TdrWriteStartsOrQueues := by
  intro p port a v h
  rw [show p.write .byte a v = _ from writeWith_tdr checkActivations v h]
  refine ⟨fun hdma hte => ?set, fun hline hte => ?clear⟩
  case set =>
    cases hbusy : (p.sci port).busy with
    | false =>
      refine ⟨_, tdrAction_starts hdma hbusy hte, ?_⟩
      rw [Platform.sci_setLine, sci_started, asserted_setLine]
      refine ⟨rfl, fun _ => ⟨rfl, rfl, rfl, rfl, rfl, rfl, ?_⟩, nofun⟩
      rw [Platform.setLine_events]
      cases port <;> rfl
    | true =>
      have hcheck := checkActivations_noDma (noDma_queueByte hdma port (low8 v))
      refine ⟨_, tdrAction_queues (.inr hcheck) (.inl hbusy), ?_⟩
      rw [sci_queueByte]
      refine ⟨rfl, nofun, fun _ => ⟨rfl, rfl, rfl, ?_, asserted_setLine ..⟩⟩
      rw [Platform.queueByte, Platform.setLine_events, Platform.setSci_events]
  case clear =>
    exact tdrAction_queues
      (hline.symm.imp_right fun hdma => checkActivations_noDma (noDma_queueByte hdma _ _)) (.inr hte)

open Sys2Proof.Machine Sys2Proof.Claims in
/-- Settles O58, one register after the other. -/
theorem serialRegisterWrites : Obligations.SerialRegisterWrites := by
  intro p port a v c
  refine ⟨fun hdma h => ?scr, fun h => ?brr, fun h => ⟨?ssr, ?_, ?ssrRead⟩, fun h => ⟨?rdr, ?rdrRead⟩⟩
  case scr =>
    have hte : (low8 v).getLsbD 5 = v.getLsbD 5 := by simp [low8]
    rw [write_scr v h, scrAction_noDma hdma, ← hte]
    rfl
  case brr =>
    rw [write_whole (.brr port) v h rfl, storeReg, low_byte]
    rfl
  case ssr =>
    rw [write_whole (.ssr port) v h rfl, storeReg, low_byte]
    simp [Io.bind, regAction, SciPort.writeSsr, c]
  case ssrRead =>
    have hlt := c.ssr.isLt
    rw [read_whole (.ssr port) h rfl, Size.low_toNat, ← byteOfBits_toNat]
    change (c.ssr.setWidth 32).toNat % 256 ^ 1 = c.ssr.toNat
    rw [BitVec.toNat_setWidth]
    omega
  case rdr =>
    rw [write_whole (.rdr port) v h rfl]
    rfl
  case rdrRead =>
    rw [read_whole (.rdr port) h rfl]
    rfl
  · rw [read_whole (.ssr port) h rfl]

open Sys2Proof.Machine Sys2Proof.Claims in
/-- Settles O59, by the bits left and by whether a byte is queued under TE. -/
theorem byteTransmission : Obligations.ByteTransmission := by
  refine ⟨fun c => ⟨shifted_eight_prepared c, cyclesPerBit_eq c, ?_⟩, ?clock⟩
  · exact cyclesPerBit_eq c ▸ bitPeriod_bounds c
  case clock =>
    intro p port late check c entry logged
    refine ⟨bitClock_more, fun hlast hends => ?_, fun hlast hfull hte => ?_⟩
    · exact (bitClock_last hlast).trans (byteComplete_ends hends)
    · have hrestart : ∀ check, bitClock check port late p = _ :=
        fun check => (bitClock_last hlast).trans (byteComplete_restarts (c := c.shifted) hfull hte)
      exact ⟨fun hline => (hrestart check).trans (updateTxLine_restarted (c := c.shifted) hte hline),
        fun hdma => (hrestart _).trans (updateTxLine_restarted_noDma (c := c.shifted) hte hdma)⟩

end

section
/-! PROOFS of the family 60_exceptions.md. A DMA transfer: the addresses of its units, one unit between buffers,
the loop over all of them, and the activation that runs it. -/

namespace Sys2Proof.Machine

open Sys2Proof.Claims

/-! ### The addresses of a transfer's units -/

/-- The change of an address per unit is the step times the unit size (60_exceptions.md R416). -/
theorem dmaStep_eq (z : Size) (code : BitVec 2) :
    dmaStep code z.scale = BitVec.ofInt 32 (stepOf z code) := by
  revert code
  cases z <;> decide

/-- An address a number of steps further. -/
def movedBy (z : Size) (code : BitVec 2) (a : Word) (k : Nat) : Word :=
  BitVec.ofInt 32 ((a.toNat : Int) + k * stepOf z code)

theorem movedBy_zero (z : Size) (code : BitVec 2) (a : Word) : movedBy z code a 0 = a := by
  apply BitVec.eq_of_toNat_eq
  simp [movedBy]

theorem movedBy_succ (z : Size) (code : BitVec 2) (a : Word) (k : Nat) :
    movedBy z code a (k + 1) = movedBy z code a k + dmaStep code z.scale := by
  rw [dmaStep_eq, movedBy, movedBy, ← BitVec.ofInt_add]
  congr 1
  push_cast
  ring

theorem aligned_movedBy {z : Size} {a : Word} (h : Aligned z a) (code : BitVec 2) (k : Nat) :
    Aligned z (movedBy z code a k) := by
  simp only [Aligned, movedBy, stepOf, BitVec.toNat_ofInt] at *
  split
  · cases z <;> simp only [Size.bytes] at * <;> omega
  · split
    · cases z <;> simp only [Size.bytes] at * <;> omega
    · cases z <;> simp only [Size.bytes] at * <;> omega

/-- A channel after `k` of its units (60_exceptions.md R423). -/
def DmaChannel.after (ch : DmaChannel) (k : Nat) : DmaChannel :=
  { ch with sar := sourceAt ch k, dar := targetAt ch k
            count := BitVec.ofNat 17 (ch.count.toNat - k) }

theorem after_zero (ch : DmaChannel) : ch.after 0 = ch := by
  have hsar : sourceAt ch 0 = ch.sar := movedBy_zero _ _ _
  have hdar : targetAt ch 0 = ch.dar := movedBy_zero _ _ _
  rw [DmaChannel.after, hsar, hdar, Nat.sub_zero, BitVec.ofNat_toNat, BitVec.setWidth_eq]

theorem after_succ {ch : DmaChannel} {k : Nat} (h : k < ch.count.toNat) :
    ch.after (k + 1) = (ch.after k).advance (unitOf ch.chcr) := by
  have hsar : sourceAt ch (k + 1) = _ := movedBy_succ _ _ _ _
  have hdar : targetAt ch (k + 1) = _ := movedBy_succ _ _ _ _
  have hcount : BitVec.ofNat 17 (ch.count.toNat - (k + 1)) = BitVec.ofNat 17 (ch.count.toNat - k) - 1 := by
    have hlt := ch.count.isLt
    apply BitVec.eq_of_toNat_eq
    rw [BitVec.toNat_sub, BitVec.toNat_ofNat, BitVec.toNat_ofNat, show (1 : BitVec 17).toNat = 1 from rfl]
    omega
  rw [DmaChannel.after, hsar, hdar, hcount]
  rfl

theorem after_count_ne {ch : DmaChannel} {k : Nat} (h : k < ch.count.toNat) : (ch.after k).count ≠ 0 := by
  have hlt := ch.count.isLt
  intro he
  have hzero : (ch.count.toNat - k) % 2 ^ 17 = 0 :=
    (BitVec.toNat_ofNat ..).symm.trans (congrArg BitVec.toNat he)
  omega

theorem after_all_count (ch : DmaChannel) : (ch.after ch.count.toNat).count = 0 := by
  simp [DmaChannel.after]

/-! ### One unit between buffers -/

/-- The bytes split from joined bytes are those bytes. -/
theorem splitBytes_joinBytes (z : Size) (b : Nat → Byte) {k : Nat} (hk : k < z.bytes) :
    (splitBytes z.bytes (joinBytes ((List.range z.bytes).map b))).getD k 0 = b k :=
  BitVec.eq_of_toNat_eq ((splitBytes_getD _ hk).trans ((joinBytes_digits z b).2 k hk))

/-- The platform with the bytes of one unit copied. -/
def Platform.copyUnit (p : Platform) (z : Size) (src dst : Word) : Platform :=
  let v := joinBytes ((List.range z.bytes).map fun k => byteAt p (place p src + k))
  { p with mem := p.mem.writeBytes p.pageTable (place p dst) (splitBytes z.bytes v) }

theorem copyUnit_byte {p : Platform} (hp : Canonical p) (z : Size) (src dst : Word) {i : Nat}
    (hi : i < z.bytes) : byteAt (p.copyUnit z src dst) (place p dst + i) = byteAt p (place p src + i) := by
  refine (byteAt_writeBytes hp _ _ _).trans ?_
  rw [splitBytes_length, if_pos ⟨by omega, by omega⟩, Nat.add_sub_cancel_left]
  exact splitBytes_joinBytes z (fun k => byteAt p (place p src + k)) hi

theorem copyUnit_other {p : Platform} (hp : Canonical p) {z : Size} (src : Word) {dst : Word} {x : Nat}
    (hx : x < place p dst ∨ place p dst + z.bytes ≤ x) : byteAt (p.copyUnit z src dst) x = byteAt p x := by
  refine (byteAt_writeBytes hp _ _ _).trans (if_neg ?_)
  rw [splitBytes_length]
  omega

/-- A unit whose source lies in a buffer and whose destination may be written. -/
theorem dmaUnit_buffers {p : Platform} {c : Fin 4} {z : Size} {e : PageEntry} (check : Platform → Io)
    (hsrc : Aligned z (p.chan c).sar) (hdst : Aligned z (p.chan c).dar)
    (he : p.target (physical (p.chan c).sar) = .buffer e) (hw : Writable p (p.chan c).dar) :
    dmaUnit check c z p =
      .ok ((p.copyUnit z (p.chan c).sar (p.chan c).dar).setChan c ((p.chan c).advance z)) := by
  obtain ⟨e', he', hw'⟩ := hw
  rw [dmaUnit, Size.aligned_iff.2 hsrc, read_buffer z he]
  simp only [Bool.not_true, Bool.false_eq_true, if_false, Size.aligned_iff.2 hdst,
    writeWith_of_writable check z _ he' hw', Io.bind, ← place_eq he']
  rfl

/-! ### The loop over the units -/

/-- What `m` units of the channel `c`, the channel `ch` of `p`, have made of the platform: the channel is `m`
units further, of the rest only bytes of the destinations have changed, and where no source meets a
destination, every unit that no later one overwrites is copied. -/
structure UnitsMoved (p : Platform) (c : Fin 4) (ch : DmaChannel) (m : Nat) (q : Platform) : Prop where
  chan : q.chan c = ch.after m
  others : ∀ c', c' ≠ c → q.chan c' = p.chan c'
  canonical : Canonical q
  rest : { q with mem := p.mem, dma := p.dma } = p
  outside : ∀ x, (∀ k, k < m → x < place p (targetAt ch k) ∨
    place p (targetAt ch k) + (unitOf ch.chcr).bytes ≤ x) → byteAt q x = byteAt p x
  copied : (∀ j k, j < m → k < m →
      Apart (unitOf ch.chcr) (place p (sourceAt ch j)) (place p (targetAt ch k))) →
    ∀ k, k < m → (∀ j, k < j → j < m →
      Apart (unitOf ch.chcr) (place p (targetAt ch j)) (place p (targetAt ch k))) →
    ∀ i, i < (unitOf ch.chcr).bytes →
      byteAt q (place p (targetAt ch k) + i) = byteAt p (place p (sourceAt ch k) + i)

section

variable {p q : Platform} {c : Fin 4} {m : Nat}

theorem UnitsMoved.refl (hp : Canonical p) : UnitsMoved p c (p.chan c) 0 p where
  chan := (after_zero _).symm
  others := fun _ _ => rfl
  canonical := hp
  rest := rfl
  outside := fun _ _ => rfl
  copied := fun _ k hk => absurd hk (Nat.not_lt_zero k)

variable {ch : DmaChannel}

theorem UnitsMoved.pageTable (h : UnitsMoved p c ch m q) : q.pageTable = p.pageTable :=
  (congrArg Platform.pageTable h.rest :)

theorem UnitsMoved.params (h : UnitsMoved p c ch m q) : q.params = p.params :=
  (congrArg Platform.params h.rest :)

theorem UnitsMoved.target (h : UnitsMoved p c ch m q) (t : Nat) : q.target t = p.target t :=
  Platform.target_congr h.params h.pageTable t

theorem UnitsMoved.place_eq (h : UnitsMoved p c ch m q) (a : Word) : place q a = place p a := by
  unfold place
  rw [h.pageTable]

/-- One more unit. -/
theorem UnitsMoved.step (h : UnitsMoved p c ch m q) (hm : m < ch.count.toNat) :
    UnitsMoved p c ch (m + 1)
      ((q.copyUnit (unitOf ch.chcr) (sourceAt ch m) (targetAt ch m)).setChan c
        ((ch.after m).advance (unitOf ch.chcr))) where
  chan := by rw [Platform.chan_setChan, if_pos rfl, after_succ hm]
  others c' hc' := by
    rw [Platform.chan_setChan, if_neg hc']
    exact h.others c' hc'
  canonical := Memory.writeBytes_wf h.canonical
  rest := h.rest
  outside x hx := by
    refine (copyUnit_other h.canonical _ ?_).trans (h.outside x fun k hk => hx k (by omega))
    rw [h.place_eq]
    exact hx m (Nat.lt_succ_self m)
  copied hapart k hk hlater i hi := by
    change byteAt (q.copyUnit _ _ _) _ = _
    obtain hlt | rfl := Nat.lt_succ_iff_lt_or_eq.1 hk
    · have hkept := hlater m hlt (Nat.lt_succ_self m)
      rw [copyUnit_other h.canonical]
      · exact h.copied (fun j k hj hk => hapart j k (by omega) (by omega)) k hlt
          (fun j hj hjm => hlater j hj (by omega)) i hi
      · rw [h.place_eq]
        unfold Apart at hkept
        omega
    · rw [← h.place_eq, copyUnit_byte h.canonical _ _ _ hi, h.place_eq]
      refine h.outside _ fun j hj => ?_
      have hsrc := hapart k j (Nat.lt_succ_self k) (by omega)
      unfold Apart at hsrc
      omega

end

theorem runUnits_due {check : Platform → Io} {c : Fin 4} {z : Size} {p : Platform} (fuel : Nat)
    (h : p.unitDue c = true) :
    runUnits check c z (fuel + 1) p = (dmaUnit check c z p).bind (runUnits check c z fuel) :=
  if_pos h

theorem runUnits_stopped {check : Platform → Io} {c : Fin 4} {z : Size} {p : Platform} (fuel : Nat)
    (h : p.unitDue c = false) : runUnits check c z fuel p = .ok p := by
  cases fuel with
  | zero => exact if_neg (Bool.eq_false_iff.1 h)
  | succ fuel => exact if_neg (Bool.eq_false_iff.1 h)

theorem unitDue_iff {p : Platform} {c : Fin 4} :
    p.unitDue c = true ↔ (p.chan c).count ≠ 0 ∧ p.requested c = true := by
  simp [Platform.unitDue]

section

variable {p q : Platform} {c : Fin 4} {ch : DmaChannel} {m : Nat} (hauto : p.rsLine ch.rs = .auto)
  (hb : BetweenBuffers p ch)

include hauto in
theorem UnitsMoved.unitDue (h : UnitsMoved p c ch m q) (hm : m < ch.count.toNat) : q.unitDue c = true := by
  refine unitDue_iff.2 ⟨?_, ?_⟩
  · rw [h.chan]
    exact after_count_ne hm
  · rw [Platform.requested, h.chan, Platform.rsLine, h.params]
    change q.asserted (p.rsLine ch.rs) = true
    rw [hauto]
    rfl

theorem UnitsMoved.unitDue_all (h : UnitsMoved p c ch ch.count.toNat q) : q.unitDue c = false := by
  rw [Bool.eq_false_iff]
  intro hdue
  refine (unitDue_iff.1 hdue).1 ?_
  rw [h.chan]
  exact after_all_count ch

include hb in
theorem UnitsMoved.dmaUnit (h : UnitsMoved p c ch m q) (hm : m < ch.count.toNat) (check : Platform → Io) :
    dmaUnit check c (unitOf ch.chcr) q =
      .ok ((q.copyUnit (unitOf ch.chcr) (sourceAt ch m) (targetAt ch m)).setChan c
        ((ch.after m).advance (unitOf ch.chcr))) := by
  obtain ⟨hsar, hdar, hunits⟩ := hb
  obtain ⟨⟨e, he⟩, hw⟩ := hunits m hm
  have hsrc : (q.chan c).sar = sourceAt ch m := congrArg DmaChannel.sar h.chan
  have hdst : (q.chan c).dar = targetAt ch m := congrArg DmaChannel.dar h.chan
  rw [dmaUnit_buffers (e := e) check (hsrc ▸ aligned_movedBy hsar _ m) (hdst ▸ aligned_movedBy hdar _ m),
    hsrc, hdst, h.chan]
  · rw [hsrc, h.target]
    exact he
  · rw [hdst, Writable, h.target]
    exact hw

include hauto hb in
/-- The loop moves the units that are left, with fuel for them. -/
theorem UnitsMoved.runUnits (h : UnitsMoved p c ch m q) (hm : m ≤ ch.count.toNat) (check : Platform → Io)
    {fuel : Nat} (hfuel : ch.count.toNat ≤ m + fuel) :
    ∃ r, runUnits check c (unitOf ch.chcr) fuel q = .ok r ∧ UnitsMoved p c ch ch.count.toNat r := by
  induction fuel generalizing m q with
  | zero =>
    obtain rfl : m = ch.count.toNat := by omega
    exact ⟨q, runUnits_stopped 0 h.unitDue_all, h⟩
  | succ fuel ih =>
    obtain hlt | rfl := Nat.lt_or_eq_of_le hm
    · obtain ⟨r, hr, hmoved⟩ := ih (h.step hlt) hlt (by omega)
      exact ⟨r, by rw [runUnits_due fuel (h.unitDue hauto hlt), h.dmaUnit hb hlt]; exact hr, hmoved⟩
    · exact ⟨q, runUnits_stopped _ h.unitDue_all, h⟩

end

/-! ### The whole transfer -/

/-- A channel at the end of its transfer, TE set (60_exceptions.md R423). -/
def DmaChannel.completed (ch : DmaChannel) : DmaChannel :=
  { ch with sar := sourceAt ch ch.count.toNat, dar := targetAt ch ch.count.toNat, count := 0
            chcr := ch.chcr ||| 0x0002 }

theorem after_all_finish (ch : DmaChannel) : (ch.after ch.count.toNat).finish = ch.completed := by
  have hcount := after_all_count ch
  rw [DmaChannel.finish, if_pos hcount, DmaChannel.completed, ← hcount]
  rfl

theorem UnitsMoved.transferred {p q : Platform} {c : Fin 4} {ch : DmaChannel}
    (h : UnitsMoved p c ch ch.count.toNat q) (ch' : DmaChannel) : Transferred p (q.setChan c ch') ch :=
  ⟨h.rest, h.outside, h.copied⟩

/-- An AUTO channel between buffers runs its whole transfer (60_exceptions.md R423). -/
theorem runChannel_auto {p : Platform} {c : Fin 4} (check : Platform → Io) (hp : Canonical p)
    (hauto : p.rsLine (p.chan c).rs = .auto) (hb : BetweenBuffers p (p.chan c)) :
    ∃ q, UnitsMoved p c (p.chan c) (p.chan c).count.toNat q ∧
      runChannel check c p = .ok (q.setChan c (p.chan c).completed) := by
  have hfuel : (p.chan c).count.toNat ≤ 0 + dmaUnitBound := by
    have hlt := (p.chan c).count.isLt
    rw [dmaUnitBound]
    omega
  obtain ⟨q, hrun, hmoved⟩ := (UnitsMoved.refl hp).runUnits hauto hb (Nat.zero_le _) check hfuel
  refine ⟨q, hmoved, ?_⟩
  rw [runChannel, show (p.chan c).unit = unitOf (p.chan c).chcr from rfl, hrun]
  simp only [Io.bind, hmoved.chan, after_all_finish]

/-! ### An activation -/

/-- The channel running, or no longer. -/
def Platform.setActive (p : Platform) (c : Fin 4) (b : Bool) : Platform :=
  p.setChan c { p.chan c with active := b }

theorem setActive_chan_same (p : Platform) (c : Fin 4) (b : Bool) :
    (p.setActive c b).chan c = { p.chan c with active := b } := by
  rw [Platform.setActive, Platform.chan_setChan, if_pos rfl]

theorem setActive_chan_ne (p : Platform) {c d : Fin 4} (b : Bool) (h : d ≠ c) :
    (p.setActive c b).chan d = p.chan d := by
  rw [Platform.setActive, Platform.chan_setChan, if_neg h]

/-- The re-evaluation that finds one channel to run, and no other enabled (60_exceptions.md R422). -/
theorem checkActivations_runs {p q : Platform} {c : Fin 4} (hidle : (p.chan c).active = false)
    (hde : (p.chan c).chcr.getLsbD 0 = true) (hte : (p.chan c).chcr.getLsbD 1 = false)
    (hline : p.requested c = true) (others : ∀ d, d ≠ c → (p.chan d).chcr.getLsbD 0 = false)
    (hrun : runChannel (checkActivationsAt 3) c (p.setActive c true) = .ok q)
    (hq : ∀ d, d ≠ c → q.chan d = p.chan d) : checkActivations p = .ok (q.setActive c false) := by
  have hround : activate (checkActivationsAt 3) c p = .ok (q.setActive c false) := by
    have hgo : (!(p.chan c).active && (p.chan c).de && !(p.chan c).te && p.requested c) = true := by
      rw [hidle, hline, DmaChannel.de, hde, DmaChannel.te, hte]
      rfl
    refine (if_pos hgo).trans ?_
    rw [show runChannel _ c (p.setChan c _) = _ from hrun]
    rfl
  refine activateAll_of_only others hround fun r hr d hd => ?_
  cases hr
  rw [setActive_chan_ne _ _ hd, hq d hd]
  exact others d hd

/-- An AUTO channel that is enabled runs its whole transfer when the channels are re-evaluated. -/
theorem checkActivations_auto {p : Platform} {c : Fin 4} (hidle : (p.chan c).active = false)
    (hde : (p.chan c).chcr.getLsbD 0 = true) (hte : (p.chan c).chcr.getLsbD 1 = false)
    (others : ∀ d, d ≠ c → (p.chan d).chcr.getLsbD 0 = false) (hp : Canonical p)
    (hauto : p.rsLine (p.chan c).rs = .auto) (hb : BetweenBuffers p (p.chan c)) :
    ∃ q, checkActivations p = .ok q ∧ q.chan c = (p.chan c).completed ∧
      (∀ d, d ≠ c → q.chan d = p.chan d) ∧ Transferred p q (p.chan c) := by
  have hrunning := setActive_chan_same p c true
  have hline : p.requested c = true := by
    rw [Platform.requested, hauto]
    rfl
  obtain ⟨q, hmoved, hrun⟩ := runChannel_auto (p := p.setActive c true) (c := c) (checkActivationsAt 3) hp
    (by rw [hrunning]; exact hauto) (by rw [hrunning]; exact hb)
  rw [hrunning] at hmoved hrun
  have hothers : ∀ ch d, d ≠ c → (q.setChan c ch).chan d = p.chan d := by
    intro ch d hd
    rw [Platform.chan_setChan, if_neg hd, hmoved.others d hd, setActive_chan_ne p true hd]
  refine ⟨_, checkActivations_runs hidle hde hte hline others hrun (hothers _), ?_, ?_, ?_⟩
  · rw [setActive_chan_same, Platform.chan_setChan, if_pos rfl, ← hidle]
    rfl
  · intro d hd
    rw [setActive_chan_ne _ false hd, hothers _ d hd]
  · refine ⟨?_, hmoved.outside, hmoved.copied⟩
    have hrest := congrArg (fun r : Platform => { r with dma := p.dma }) hmoved.rest
    exact hrest

end Sys2Proof.Machine

open Sys2Proof.Machine Sys2Proof.Claims in
/-- Settles O55, by what every number of units has moved (`UnitsMoved`). -/
theorem autoTransferCompletes : Obligations.AutoTransferCompletes := by
  intro p c check ch n hp hauto _ hb
  obtain ⟨q, hmoved, hrun⟩ := runChannel_auto check hp hauto hb
  refine ⟨_, hrun, ?_, fun d hd => ?_, hmoved.canonical, hmoved.transferred _⟩
  · rw [Platform.chan_setChan, if_pos rfl]
    rfl
  · rw [Platform.chan_setChan, if_neg hd]
    exact hmoved.others d hd

end

section
/-! PROOFS of the family 60_exceptions.md. The write of CHCR that enables a channel; then a channel that a serial
port paces, which moves one byte and waits for its line. -/

namespace Sys2Proof.Machine

open Sys2Proof.Claims

/-! ### The write that enables a channel -/

theorem getLsbD_eq_decide {n : Nat} (v : BitVec n) (k : Nat) :
    v.getLsbD k = decide (v.toNat / 2 ^ k % 2 = 1) :=
  Nat.testBit_eq_decide_div_mod_eq

/-- A value that does not set TE is stored as it is. -/
theorem chcrStored_eq (old : Half) {v : Half} (h : v.getLsbD 1 = false) : chcrStored old v = v := by
  apply BitVec.eq_of_getLsbD_eq
  intro k hk
  rw [chcrStored_bit old v hk]
  split
  · next h1 => rw [h1, h, Bool.false_and]
  · rfl

theorem chcrStepReserved_of_given {ch : DmaChannel} (h : StepsGiven ch) :
    chcrStepReserved ch.chcr = false := by
  obtain ⟨hsource, hdestination⟩ := h
  exact Bool.or_eq_false_iff.2 ⟨beq_eq_false_iff_ne.2 hdestination, beq_eq_false_iff_ne.2 hsource⟩

/-- A value with DE set and TE and IE clear is stored, and the channels are re-evaluated. -/
theorem write_chcr_enabling {p : Platform} {c : Fin 4} {a v : Word}
    (h : p.target (physical a) = .onchip (0x14E + 0x10 * c.val)) (hv : v.toNat % 8 = 1)
    (hs : StepsGiven { p.chan c with chcr := v.setWidth 16 }) :
    p.write .word a v = checkActivations (p.setChan c { p.chan c with chcr := v.setWidth 16 }) := by
  have hie : ¬ v.getLsbD 2 = true := by
    rw [getLsbD_eq_decide, decide_eq_true_eq]
    omega
  have hte : (v.setWidth 16).getLsbD 1 = false := by
    rw [getLsbD_eq_decide, decide_eq_false_iff_not, BitVec.toNat_setWidth]
    omega
  rw [write_chcr v h, if_neg hie, if_neg (Bool.eq_false_iff.1 (chcrStepReserved_of_given hs)),
    chcrStored_eq _ hte]

/-- A channel whose line is not asserted waits. -/
theorem checkActivations_waits {p : Platform} {c : Fin 4} (hline : p.requested c = false)
    (others : ∀ d, d ≠ c → (p.chan d).chcr.getLsbD 0 = false) : checkActivations p = .ok p :=
  activateAll_of_only others (activate_of_not_requested hline) fun q hq => by cases hq; exact others

/-- What a transfer leaves does not depend on the channels before it. -/
theorem transferred_of_setChan {p q : Platform} {c : Fin 4} {ch ch' : DmaChannel}
    (h : Transferred (p.setChan c ch') q ch) : Transferred p q ch :=
  ⟨(congrArg (fun r : Platform => { r with dma := p.dma }) h.1 :), h.2⟩

theorem asserted_setChan (p : Platform) (c : Fin 4) (ch : DmaChannel) (l : DreqLine) :
    (p.setChan c ch).asserted l = p.asserted l := by
  cases l <;> rfl

/-! ### A channel paced by a serial port -/

theorem setChan_setChan (p : Platform) (c : Fin 4) (a b : DmaChannel) :
    (p.setChan c a).setChan c b = p.setChan c b := by
  simp [Platform.setChan]

theorem setActive_setChan (p : Platform) (c : Fin 4) (ch : DmaChannel) (b : Bool) :
    (p.setChan c ch).setActive c b = p.setChan c { ch with active := b } := by
  rw [Platform.setActive, Platform.chan_setChan, if_pos rfl, setChan_setChan]

theorem queueByte_setChan (p : Platform) (c : Fin 4) (a : DmaChannel) (port : Port) (b : Byte) :
    (p.setChan c a).queueByte port b = (p.queueByte port b).setChan c a := by
  cases port <;> rfl

theorem queueByte_chan (p : Platform) (port : Port) (b : Byte) (c : Fin 4) :
    (p.queueByte port b).chan c = p.chan c := by
  simp [Platform.queueByte]

theorem low8_joinBytes (b : Nat → Byte) :
    low8 (joinBytes ((List.range Size.byte.bytes).map b)) = b 0 := by
  apply BitVec.eq_of_toNat_eq
  have hlt := (b 0).isLt
  have hjoin : (joinBytes ((List.range Size.byte.bytes).map b)).toNat = (b 0).toNat := joinBytes_one (b 0)
  rw [low8, BitVec.toNat_setWidth, hjoin]
  omega

/-- A byte unit from a buffer to the TDR of a busy port queues the byte. -/
theorem dmaUnit_toTdr {check : Platform → Io} {p : Platform} {c : Fin 4} {port : Port} {e : PageEntry}
    (he : p.target (physical (p.chan c).sar) = .buffer e)
    (ht : p.target (physical (p.chan c).dar) = .onchip (portBase port + 3))
    (hbusy : (p.sci port).busy = true) {b : Byte} (hbyte : byteAt p (place p (p.chan c).sar) = b)
    (hcheck : check (p.queueByte port b) = .ok (p.queueByte port b)) :
    dmaUnit check c .byte p =
      .ok ((p.queueByte port b).setChan c ((p.chan c).advance .byte)) := by
  have hlow : low8 (p.read .byte (p.chan c).sar).1 = b := by
    rw [read_buffer .byte he]
    exact (low8_joinBytes _).trans hbyte
  have hread : (p.read .byte (p.chan c).sar).2 = p := by rw [read_buffer .byte he]
  have hwrite : p.writeWith check .byte (p.chan c).dar (p.read .byte (p.chan c).sar).1 =
      .ok (p.queueByte port b) := by
    rw [writeWith_tdr check _ ht, hlow]
    exact tdrAction_queues (.inr hcheck) (.inl hbusy)
  simp [dmaUnit, Size.aligned, hread, hwrite, Io.bind, queueByte_chan]

/-- A transfer that stops after its first unit. -/
theorem runUnits_once {check : Platform → Io} {c : Fin 4} {z : Size} {p q : Platform} {fuel : Nat}
    (hfuel : 0 < fuel) (hdue : p.unitDue c = true) (hunit : dmaUnit check c z p = .ok q)
    (hstop : q.unitDue c = false) : runUnits check c z fuel p = .ok q := by
  obtain ⟨k, rfl⟩ := Nat.exists_eq_add_of_lt hfuel
  rw [Nat.zero_add, runUnits_due k hdue, hunit]
  exact runUnits_stopped k hstop

/-- A channel after a unit, its transfer ended if that was the last. -/
theorem advance_finish (ch : DmaChannel) :
    (ch.advance (unitOf ch.chcr)).finish =
      { ch with sar := sourceAt ch 1, dar := targetAt ch 1, count := ch.count - 1
                chcr := if ch.count = 1 then ch.chcr ||| 0x0002 else ch.chcr } := by
  have hsar : sourceAt ch 1 = (ch.advance (unitOf ch.chcr)).sar :=
    (movedBy_succ _ _ _ 0).trans (by rw [movedBy_zero]; rfl)
  have hdar : targetAt ch 1 = (ch.advance (unitOf ch.chcr)).dar :=
    (movedBy_succ _ _ _ 0).trans (by rw [movedBy_zero]; rfl)
  have hlast : ch.count - 1 = 0 ↔ ch.count = 1 := sub_eq_zero
  rw [hsar, hdar, DmaChannel.finish, show (ch.advance (unitOf ch.chcr)).count = ch.count - 1 from rfl]
  simp only [hlast]
  split <;> rfl

/-- The same for a channel that ran for this unit alone. -/
theorem advance_finish_idle {ch : DmaChannel} (hz : unitOf ch.chcr = .byte) (hidle : ch.active = false) :
    { ({ ch with active := true }.advance .byte).finish with active := false } =
      { ch with sar := sourceAt ch 1, dar := targetAt ch 1, count := ch.count - 1
                chcr := if ch.count = 1 then ch.chcr ||| 0x0002 else ch.chcr } := by
  have hunit : ({ ch with active := true }.advance .byte).finish = _ :=
    hz ▸ advance_finish { ch with active := true }
  rw [hunit, ← hidle]
  rfl

theorem queueByte_requested (p : Platform) {c : Fin 4} {port : Port} (b : Byte)
    (hline : p.rsLine (p.chan c).rs = txLine port) : (p.queueByte port b).requested c = false := by
  have hrs : (p.queueByte port b).rsLine (p.chan c).rs = txLine port := by
    rw [← hline]
    simp [Platform.rsLine, Platform.queueByte]
  rw [Platform.requested, queueByte_chan, hrs]
  exact asserted_setLine ..

/-- The transfer of a running channel of byte units that the transmit line of a busy port paces: one unit, and
the line is down (60_exceptions.md R443). -/
theorem runChannel_paced {check : Platform → Io} {p : Platform} {c : Fin 4} {port : Port} {e : PageEntry}
    (hz : unitOf (p.chan c).chcr = .byte) (hcount : (p.chan c).count ≠ 0)
    (hline : p.rsLine (p.chan c).rs = txLine port) (hup : p.asserted (txLine port) = true)
    (he : p.target (physical (p.chan c).sar) = .buffer e)
    (ht : p.target (physical (p.chan c).dar) = .onchip (portBase port + 3))
    (hbusy : (p.sci port).busy = true) {b : Byte} (hbyte : byteAt p (place p (p.chan c).sar) = b)
    (hcheck : check (p.queueByte port b) = .ok (p.queueByte port b)) :
    runChannel check c p =
      .ok ((p.queueByte port b).setChan c ((p.chan c).advance .byte).finish) := by
  have hdue : p.unitDue c = true := unitDue_iff.2 ⟨hcount, by rw [Platform.requested, hline, hup]⟩
  have hstop : ((p.queueByte port b).setChan c ((p.chan c).advance .byte)).unitDue c = false := by
    rw [Bool.eq_false_iff]
    intro hdue
    have hrequested := (unitDue_iff.1 hdue).2
    rw [Platform.requested, Platform.chan_setChan, if_pos rfl, asserted_setChan] at hrequested
    have hdown := queueByte_requested p b hline
    rw [Platform.requested, queueByte_chan] at hdown
    exact absurd (hdown.symm.trans hrequested) (by decide)
  have hunits := runUnits_once (fuel := dmaUnitBound) (by decide) hdue
    (dmaUnit_toTdr he ht hbusy hbyte hcheck) hstop
  rw [runChannel, show (p.chan c).unit = .byte from hz, hunits]
  simp only [Io.bind, Platform.chan_setChan, if_true, setChan_setChan]

end Sys2Proof.Machine

open Sys2Proof.Machine Sys2Proof.Claims in
/-- Settles O56: the write is a re-evaluation with the channel enabled, and a paced channel's line is down after
one unit. -/
theorem enablingWriteRunsTheTransfer : Obligations.EnablingWriteRunsTheTransfer := by
  constructor
  case left =>
    intro p c a v ch n h hidle others hv hs
    have hchan : (p.setChan c ch).chan c = ch := by rw [Platform.chan_setChan, if_pos rfl]
    have hne : ∀ d, d ≠ c → (p.setChan c ch).chan d = p.chan d :=
      fun d hd => by rw [Platform.chan_setChan, if_neg hd]
    have hothers : ∀ d, d ≠ c → ((p.setChan c ch).chan d).chcr.getLsbD 0 = false :=
      fun d hd => by rw [hne d hd]; exact others d hd
    rw [write_chcr_enabling h hv hs]
    refine ⟨fun hline => checkActivations_waits (c := c) ?_ hothers, fun hauto hp hb => ?_⟩
    · rw [Platform.requested, hchan, asserted_setChan]
      exact hline
    · have hde : ch.chcr.getLsbD 0 = true := by
        rw [getLsbD_eq_decide, decide_eq_true_eq, BitVec.toNat_setWidth]
        omega
      have hte : ch.chcr.getLsbD 1 = false := by
        rw [getLsbD_eq_decide, decide_eq_false_iff_not, BitVec.toNat_setWidth]
        omega
      obtain ⟨q, hrun, hq, hqothers, hmoved⟩ := checkActivations_auto (p := p.setChan c ch) (c := c)
        (by rw [hchan]; exact hidle) (by rw [hchan]; exact hde) (by rw [hchan]; exact hte) hothers hp
        (by rw [hchan]; exact hauto) (by rw [hchan]; exact hb)
      rw [hchan] at hq hmoved
      exact ⟨q, hrun, hq, fun d hd => (hqothers d hd).trans (hne d hd), transferred_of_setChan hmoved⟩
  case right =>
    intro p c port e ch hidle hde hte hz hs hcount hline hup others he ht hbusy
    have hrunning := setActive_chan_same p c true
    have hquiet : checkActivationsAt 3 ((p.setActive c true).queueByte port (byteAt p (place p ch.sar))) =
        .ok ((p.setActive c true).queueByte port (byteAt p (place p ch.sar))) := by
      refine checkActivationsAt_of_active (c := c) 3 (by rw [queueByte_chan, hrunning]) fun d hd => ?_
      rw [queueByte_chan, setActive_chan_ne p true hd]
      exact others d hd
    have hrun := runChannel_paced (p := p.setActive c true) (c := c) (port := port) (e := e)
      (check := checkActivationsAt 3) (b := byteAt p (place p ch.sar))
      (by rw [hrunning]; exact hz) (by rw [hrunning]; exact hcount) (by rw [hrunning]; exact hline)
      ((asserted_setChan ..).trans hup) (by rw [hrunning]; exact he) (by rw [hrunning]; exact ht)
      ((Platform.sci_setChan ..).symm ▸ hbusy) (by rw [hrunning]; rfl) hquiet
    rw [hrunning] at hrun
    refine (checkActivations_runs hidle hde hte ?_ others hrun fun d hd => ?_).trans ?_
    · rw [Platform.requested, hline, hup]
    · rw [Platform.chan_setChan, if_neg hd, queueByte_chan, setActive_chan_ne p true hd]
    · rw [setActive_setChan, advance_finish_idle hz hidle, Platform.setActive, queueByte_setChan,
        setChan_setChan]
      rfl

end

section
/-! PROOFS of the family 60_exceptions.md. The scheduler: the due events sorted by target with ties in insertion
order, and a firing pass of the CPU's domain. -/

namespace Sys2Proof.Machine

open Sys2Proof.Claims

/-! ### Events by target -/

/-- In nondecreasing order of target. -/
def ByTarget (l : List Event) : Prop := l.Pairwise fun e e' => e.target ≤ e'.target

/-- The events of one target, in their order in the list. -/
def atTarget (t : Int) (l : List Event) : List Event := l.filter fun e => decide (e.target = t)

theorem mem_insertEvent {e x : Event} {l : List Event} : x ∈ insertEvent e l ↔ x = e ∨ x ∈ l := by
  induction l with
  | nil => simp [insertEvent]
  | cons d l ih =>
    rw [insertEvent]
    split
    · rw [List.mem_cons, ih, List.mem_cons]
      exact or_left_comm
    · exact List.mem_cons

theorem insertEvent_sorted (e : Event) {l : List Event} (h : ByTarget l) : ByTarget (insertEvent e l) := by
  induction l with
  | nil => exact List.pairwise_singleton _ e
  | cons d l ih =>
    obtain ⟨hd, hl⟩ := List.pairwise_cons.1 h
    rw [insertEvent]
    split
    · next hle =>
      refine List.pairwise_cons.2 ⟨fun x hx => ?_, ih hl⟩
      obtain rfl | hx := mem_insertEvent.1 hx
      · exact hle
      · exact hd x hx
    · next hlt =>
      refine List.pairwise_cons.2 ⟨fun x hx => ?_, h⟩
      obtain rfl | hx := List.mem_cons.1 hx
      · omega
      · exact (le_of_not_ge hlt).trans (hd x hx)

/-- An event enters after those of its own target. -/
theorem atTarget_insertEvent (t : Int) (e : Event) {l : List Event} (h : ByTarget l) :
    atTarget t (insertEvent e l) = atTarget t l ++ atTarget t [e] := by
  induction l with
  | nil => rfl
  | cons d l ih =>
    obtain ⟨hd, hl⟩ := List.pairwise_cons.1 h
    rw [insertEvent]
    split
    · have hcons : ∀ l', atTarget t (d :: l') = atTarget t [d] ++ atTarget t l' :=
        fun l' => List.filter_append [d] l'
      rw [hcons, ih hl, hcons l, List.append_assoc]
    · next hlt =>
      by_cases ht : e.target = t
      · have hnone : atTarget t (d :: l) = [] := by
          refine List.filter_eq_nil_iff.2 fun x hx => ?_
          have hle : d.target ≤ x.target := by
            obtain rfl | hx := List.mem_cons.1 hx
            · exact le_rfl
            · exact hd x hx
          rw [decide_eq_true_eq]
          omega
        rw [hnone, List.nil_append, atTarget, List.filter_cons_of_pos (by simpa using ht)]
        change e :: atTarget t (d :: l) = atTarget t [e]
        rw [hnone]
        simp [atTarget, ht]
      · rw [atTarget, List.filter_cons_of_neg (by simpa using ht), show atTarget t [e] = [] by
          simp [atTarget, ht], List.append_nil]
        rfl

/-- Sorting keeps the events of each target in insertion order (60_exceptions.md R404). -/
theorem byTarget_sorted_stable (l : List Event) :
    ByTarget (byTarget l) ∧ ∀ t, atTarget t (byTarget l) = atTarget t l := by
  have hfold : ∀ (l acc : List Event), ByTarget acc →
      ByTarget (l.foldl (fun acc e => insertEvent e acc) acc) ∧
        ∀ t, atTarget t (l.foldl (fun acc e => insertEvent e acc) acc) =
          atTarget t acc ++ atTarget t l := by
    intro l
    induction l with
    | nil => exact fun acc h => ⟨h, fun t => (List.append_nil _).symm⟩
    | cons e l ih =>
      intro acc h
      obtain ⟨hsorted, hstable⟩ := ih (insertEvent e acc) (insertEvent_sorted e h)
      refine ⟨hsorted, fun t => ?_⟩
      rw [List.foldl_cons, hstable t, atTarget_insertEvent t e h, List.append_assoc]
      exact congrArg _ (List.filter_append [e] l).symm
  exact hfold l [] List.Pairwise.nil

theorem mem_byTarget {x : Event} {l : List Event} : x ∈ byTarget l ↔ x ∈ l := by
  have hmem : ∀ l : List Event, x ∈ l ↔ x ∈ atTarget x.target l := fun l => by simp [atTarget]
  rw [hmem, (byTarget_sorted_stable l).2, ← hmem]

/-! ### The due events -/

theorem isDue_of_tick {p : Platform} {e : Event} {now : Int} (h : p.tick e.domain = some now) :
    p.isDue e = decide (e.target ≤ now) := by
  rw [Platform.isDue, h]

section

variable {p : Platform} (hdomains : p.params.clockDomains = [])

include hdomains

/-- With the CPU's domain alone, an event of another domain is never due. -/
theorem isDue_cpu (e : Event) :
    p.isDue e = (decide (e.domain = 0) && decide (e.target ≤ (p.now : Int))) := by
  cases hd : e.domain with
  | zero => rw [isDue_of_tick (now := p.now) (by rw [hd]; rfl)]; rfl
  | succ k =>
    rw [Platform.isDue, hd, Platform.tick, hdomains]
    rfl

theorem dueEvents_cpu : p.dueEvents = p.dueIn 0 := by
  rw [Platform.dueEvents, Platform.domains, hdomains]
  exact List.append_nil _

end

theorem mem_dueIn {p : Platform} {d : Nat} {e : Event} (h : e ∈ p.dueIn d) :
    e ∈ p.events ∧ e.domain = d := by
  obtain ⟨hmem, hdue⟩ := List.mem_filter.1 (mem_byTarget.1 h)
  rw [Bool.and_eq_true, decide_eq_true_eq] at hdue
  exact ⟨hmem, hdue.1⟩

/-! ### A firing pass -/

theorem fireRounds_idle {p : Platform} (fuel : Nat) (h : p.dueEvents = []) :
    fireRounds fuel p = some (p, none) := by
  cases fuel with
  | zero => rfl
  | succ fuel => simp [fireRounds, h]

theorem fireRounds_due {p : Platform} (fuel : Nat) (h : p.dueEvents ≠ []) :
    fireRounds (fuel + 1) p =
      (fireEach p.dueEvents { p with events := p.events.filter fun e => !p.isDue e }).bind fun q =>
        (fireRounds fuel q.1).map fun r => (r.1, q.2.or r.2) := by
  obtain ⟨e, l, he⟩ := List.exists_cons_of_ne_nil h
  simp [fireRounds, he]

/-- A pass over a queue with an event has a round (60_exceptions.md R405). -/
theorem roundBound_pos {p : Platform} (h : p.events ≠ []) : 0 < roundBound p := by
  have hmono : ∀ (l : List Event) (acc : Nat),
      acc ≤ l.foldl (fun acc e => max acc ((p.lateness e).toNat / 32 + 1)) acc := by
    intro l
    induction l with
    | nil => exact fun acc => le_rfl
    | cons e l ih => exact fun acc => (le_max_left _ _).trans (ih _)
  obtain ⟨e, l, he⟩ := List.exists_cons_of_ne_nil h
  rw [roundBound, he]
  exact (Nat.succ_pos _).trans_le ((le_max_right 0 _).trans (hmono l _))

/-- Handlers of events of the CPU's domain that all end, each with the lateness at `now`, leave the last
platform of their run. -/
theorem fireEach_run {run : Nat → Platform} {l : List Event} {k : Nat} (hdomain : ∀ e ∈ l, e.domain = 0)
    (hrun : ∀ (j : Nat) (e : Event), l[j]? = some e →
      bitClock checkActivations e.port (((run k).now : Int) - e.target) (run (k + j)) =
        .ok (run (k + j + 1))) :
    fireEach l (run k) = some (run (k + l.length), none) ∧ (run k).Follows (run (k + l.length)) := by
  induction l generalizing k with
  | nil => exact ⟨rfl, .refl _⟩
  | cons e l ih =>
    have hlate : (run k).lateness e = ((run k).now : Int) - e.target := by
      rw [Platform.lateness, hdomain e List.mem_cons_self]
      rfl
    have hfirst := hrun 0 e rfl
    have hfollows := bitClock_follows checkActivations_follows e.port (((run k).now : Int) - e.target) (run k)
    rw [Nat.add_zero] at hfirst
    rw [hfirst] at hfollows
    have hnow : (run (k + 1)).now = (run k).now := Platform.FollowsBut.now hfollows
    obtain ⟨hrest, hfollows'⟩ := ih (k := k + 1) (fun e he => hdomain e (List.mem_cons_of_mem _ he))
      fun j e' he' => by
        rw [hnow, Nat.add_assoc k 1 j, Nat.add_comm 1 j]
        exact hrun (j + 1) e' he'
    have hlength : k + 1 + l.length = k + (e :: l).length := by
      rw [List.length_cons]
      omega
    rw [hlength] at hrest hfollows'
    refine ⟨?_, Platform.FollowsBut.trans hfollows hfollows'⟩
    rw [fireEach, hlate, hfirst]
    exact hrest

end Sys2Proof.Machine

open Sys2Proof.Machine Sys2Proof.Claims in
/-- Settles O60: the due events are a filter of the queue sorted stably, and a pass is a round of their handlers
and an idle one. -/
theorem dueEventsFireInOrder : Obligations.DueEventsFireInOrder := by
  refine ⟨fun p d now htick => ?due, fun p hdomains => ⟨dueEvents_cpu hdomains, rfl, fun hidle => ?idle,
    fun run hdue hstart hrun hend => ?fires⟩⟩
  case due =>
    obtain ⟨hsorted, hstable⟩ :=
      byTarget_sorted_stable (p.events.filter fun e => decide (e.domain = d) && p.isDue e)
    refine ⟨hsorted, fun t => (hstable t).trans ?_⟩
    rw [atTarget, List.filter_filter]
    refine List.filter_congr fun e _ => ?_
    by_cases hd : e.domain = d
    · rw [isDue_of_tick (hd ▸ htick)]
      by_cases ht : e.target = t <;> simp [hd, ht]
    · simp [hd]
  case idle => exact fireRounds_idle _ ((dueEvents_cpu hdomains).trans hidle)
  case fires =>
    have hevents : p.events ≠ [] := by
      obtain ⟨e, he⟩ := List.exists_mem_of_ne_nil _ hdue
      exact List.ne_nil_of_mem (mem_dueIn he).1
    obtain ⟨fuel, hfuel⟩ := Nat.exists_eq_add_of_lt (roundBound_pos hevents)
    have hfirst : { p with events := p.events.filter fun e => !p.isDue e } = run 0 := by
      simp only [isDue_cpu hdomains, hstart]
    have hnow : (run 0).now = p.now := by rw [hstart]
    obtain ⟨heach, hfollows⟩ := fireEach_run (run := run) (k := 0) (l := p.dueIn 0)
      (fun e he => (mem_dueIn he).2) fun j e he => by
        rw [hnow, Nat.zero_add]
        exact hrun j e he
    rw [Nat.zero_add] at heach hfollows hfuel
    have hlast : (run (p.dueIn 0).length).dueEvents = [] := by
      refine (dueEvents_cpu ?_).trans hend
      rw [Platform.FollowsBut.params hfollows, hstart]
      exact hdomains
    rw [fireDue, hfuel, fireRounds_due fuel (by rw [dueEvents_cpu hdomains]; exact hdue), hfirst,
      dueEvents_cpu hdomains, heach, Option.bind_some, fireRounds_idle fuel hlast]
    rfl

end

section
/-! PROOFS of the family 70_reset_and_hazards.md. Power-on reset: the two long words that PC and R15 are read
from, and the values of the status register, the channels, the request lines and the ports. -/

namespace Sys2Proof.Machine

/-! ### The reset vector -/

/-- Where a buffer owns an address, the long that reset reads there is the bus's (70_reset_and_hazards.md
R480). -/
theorem resetVector_eq_read {p : Platform} {a : Word} {e : PageEntry}
    (h : p.target (physical a) = .buffer e) : p.resetVector (physical a) = (p.read .long a).1 := by
  rw [read_of_buffer .long h, Platform.resetVector, Platform.target_buffer.1 h]
  rfl

/-- The addresses of one page are a buffer's together (20_memory.md R80). -/
theorem target_buffer_of_same_page {p : Platform} {t u : Nat} {e : PageEntry}
    (hpage : u / pageSize = t / pageSize) (h : p.target t = .buffer e) : p.target u = .buffer e := by
  rw [Platform.target_buffer, PageTable.lookup] at h ⊢
  rw [hpage, h]

section

variable {l : Launch} {e : PageEntry} (hbuffer : (Platform.powerOn l).target 0 = .buffer e)

include hbuffer

theorem powerOn_pc : (State.powerOn l).pc = ((State.powerOn l).plat.read .long 0).1 :=
  resetVector_eq_read (a := 0) hbuffer

theorem powerOn_sp : (State.powerOn l).reg 15 = ((State.powerOn l).plat.read .long 4).1 := by
  have hvector : (State.powerOn l).reg 15 = (Platform.powerOn l).resetVector 4 := Vector.getElem_push_eq ..
  rw [hvector]
  exact resetVector_eq_read (a := 4) (target_buffer_of_same_page (t := 0) rfl hbuffer)

end

/-! ### The reset values -/

/-- Apart from its flags, SR reads as its mask at bits 7 to 4 (10_state.md R35). -/
theorem StatusReg.word_without_flags (r : StatusReg) :
    r.word &&& 0xFFFFFCFC = r.i.setWidth 32 <<< 4 := by
  obtain ⟨t, s, i, q, m⟩ := r
  revert t s i q m
  decide

theorem powerOn_srWord (l : Launch) : (State.powerOn l).srWord &&& 0xFFFFFCFC = 0x000000F0 :=
  StatusReg.word_without_flags _

theorem tcrCount_pos (v : Half) : 1 ≤ (tcrCount v).toNat :=
  Nat.pos_of_ne_zero fun h => tcrCount_ne v (BitVec.eq_of_toNat_eq h)

theorem powerOn_asserted (l : Launch) (line : DreqLine) :
    (Platform.powerOn l).asserted line = decide (line = .auto) := by
  cases line <;> rfl

theorem powerOn_intc (l : Launch) (r : IntcReg) : (Platform.powerOn l).intc.get r = 0 := by
  cases r <;> rfl

end Sys2Proof.Machine

open Sys2Proof.Machine in
/-- Settles O5: PC and R15 by the bus's reads of the buffer at 0, the hooks by `addHooks`, the channels and the
ports by the reset value of each. -/
theorem resetValues : Obligations.ResetValues := by
  intro l ⟨e, hbuffer⟩ s
  refine ⟨⟨powerOn_pc hbuffer, powerOn_sp hbuffer, rfl, powerOn_srWord l⟩,
    ⟨rfl, rfl, rfl, rfl, rfl, rfl, rfl, rfl, rfl⟩, ⟨rfl, rfl, rfl, (addHooks l.hooks).2⟩,
    fun c => ?channel, ⟨rfl, powerOn_intc l⟩, powerOn_asserted l, fun port => ?port⟩
  case channel =>
    rw [show s.plat.chan c = .reset l.drawn.dma[c.val] from powerOn_chan l c]
    exact ⟨rfl, rfl, tcrCount_pos _, tcrCount_le _⟩
  case port =>
    simp only [Platform.onchipValue, show s.plat.sci port = .reset from powerOn_sci l port]
    decide

end
